-- ==== Sys2Proof/Word.lean ====
section
/-! DEFINITION. The word types of the core and the names of its eight algorithms
(00_scope.md R3, R8, R10; all values are unsigned). -/

namespace Sys2Proof

/-- A message, buffer, digest or payload byte. -/
abbrev Byte := BitVec 8

/-- A command word (30_encoding.md R80, R81). -/
abbrev Word16 := BitVec 16

/-- A word of MD5Compress, SHA1Compress and SHA256Compress (00_scope.md R12). -/
abbrev Word32 := BitVec 32

/-- A word of SHA512Compress, and the physical width of `H[i]` (00_scope.md R9, R12). -/
abbrev Word64 := BitVec 64

/-- The eight algorithm variants (00_scope.md R3, R8), the values of register `ALG`. -/
inductive Alg where
  | md5
  | sha1
  | sha224
  | sha256
  | sha384
  | sha512
  | sha512_224
  | sha512_256
deriving DecidableEq, Repr

end Sys2Proof
end

