-- ==== Sys2Proof/Machine/State.lean ====
section
/-! DEFINITION. The state of one core (10_state.md R20), its command port, reset, and the reasons a
step can stop. -/

namespace Sys2Proof.Machine

/-- Register `PHASE`, the position in the lifecycle (10_state.md R24). All four 2-bit values are
phases; `Phase.code` gives the values. -/
inductive Phase where
  | uninit
  | active
  | done
  | failed
deriving DecidableEq, Repr

/-- A status code (30_encoding.md R92): the status of a response and the content of register `ERR`.
Codes 5 to 15 are never produced, and a model's status type needs only these five
(93_implementation_defined.md U8); `Status.code` gives the 4-bit values. -/
inductive Status where
  | ok
  | messageTooLarge
  | invalidAlgorithmSelector
  | invalidState
  | illegalCommand
deriving DecidableEq, Repr

/-- The four errors a command can raise (60_exceptions.md R340). -/
inductive ErrorKind where
  | messageTooLarge
  | invalidAlgorithmSelector
  | invalidState
  | illegalCommand
deriving DecidableEq, Repr

/-- A response `(status, len, data)` (30_encoding.md R90). -/
structure Response where
  status : Status
  len : BitVec 8
  data : List Byte
deriving DecidableEq, Repr

/-- What the host does to the core: give a command word (30_encoding.md R80) or assert the reset
(70_reset_and_hazards.md R380). -/
inductive HostEvent where
  | cmd (word : Word16)
  | rst
deriving DecidableEq, Repr

/-- The buffer memory `BUF` (20_memory.md R50): address and byte, addresses strictly rising, no
entry equal to what an unlisted address reads as. -/
abbrev Memory := List Host.Cell

/-- What an unlisted address reads as. The spec gives `BUF` no reset contents (R37); 0x00 is also
what INIT and FINALIZE write to every byte (41_init.md R130, 43_finalize_padding.md R176).
DESIGN CHOICE, unsafe for memory that no command has written (log entry 2). -/
def Memory.unlisted : Byte := 0x00

/-- The state of one core instance: the tuple of R20, then the command port. -/
structure State where
  /-- `PHASE` (R24). -/
  phase : Phase
  /-- `ERR` (R25). -/
  err : Status
  /-- `ALG` (R21). -/
  alg : Alg
  /-- `H[0..7]` (R22). -/
  h : Vector Word64 8
  /-- `LEN` (R23). -/
  len : BitVec 128
  /-- `BUF[0..255]` (R26). -/
  buf : Memory
  /-- `BUFLEN` (R27). -/
  buflen : BitVec 9
  /-- `DIGEST[0..63]` (R28). -/
  digest : Vector Byte 64
  /-- The host's events still to come, first one first (30_encoding.md R80; log entry 4). -/
  input : List HostEvent
  /-- The response of the last command, none after reset (R90, R380; log entry 5). -/
  rsp : Option Response
  /-- The MODEL's own: how many reset events have been taken; it keeps the free values of one apart from
  those of the next (log entry 3). -/
  resets : Nat
deriving DecidableEq, Repr

/-- Why the core stops. -/
inductive Fault where
  /-- An access to `BUF` at address 256 or above, an address that does not exist (00_scope.md R11,
  20_memory.md R50). Raised by UPDATE and FINALIZE in phase ACTIVE when `BUFLEN ≥ 256`. R53 says no
  rule issues such an access: only states that no run reaches have it. Safe (log entry 7). -/
  | bufferRange
deriving DecidableEq, Repr

/-- Why the model gives an instruction no meaning. -/
inductive Refusal where
  /-- Raised by an arm of exec for an instruction without a meaning; no arm of this model does. Safe. -/
  | notModelled (mnemonic : String)
deriving DecidableEq, Repr

/-- The machine right after reset (10_state.md R37, 70_reset_and_hazards.md R380): `PHASE = UNINIT`,
`ERR = 0`, the command port idle. DESIGN CHOICE, unsafe (log entry 1): the spec leaves the other
registers unspecified, and here each is zero. -/
def State.reset : State where
  phase := .uninit
  err := .ok
  alg := .md5
  h := Vector.replicate 8 0
  len := 0
  buf := []
  buflen := 0
  digest := Vector.replicate 64 0
  input := []
  rsp := none
  resets := 0

end Sys2Proof.Machine
end

