-- ==== Sys2Proof/Config.lean ====
section
/-! DEFINITION. The free values of the model. The spec leaves every register but `PHASE` and `ERR`
unspecified after a reset (10_state.md R37, 70_reset_and_hazards.md R380): "a model must not assume any
value for them", and "unspecified" includes "unchanged" (R381). So each value is a constant with no body
applied to the whole state the reset arrives in: it may be the old content of its register, a function
of anything in the state, or neither, and nothing can be proved of it. The count `resets` in that state
makes every reset event's values its own (log entry 3). The response ports have no value either while
there is no response (30_encoding.md R93; log entry 5). -/

namespace Sys2Proof

/-- Code held by `ALG` after a reset event that arrives in the given state: free (R37, R381). -/
opaque Config.resetAlg : Machine.State → BitVec 3

/-- `H[i]` after a reset event that arrives in the given state: free (R37, R381). -/
opaque Config.resetH : Machine.State → Nat → BitVec 64

/-- `LEN` after a reset event that arrives in the given state: free (R37, R381). -/
opaque Config.resetLen : Machine.State → BitVec 128

/-- `BUF[a]` after a reset event that arrives in the given state: free (R37, R381). -/
opaque Config.resetBuf : Machine.State → Nat → BitVec 8

/-- `BUFLEN` after a reset event that arrives in the given state: free (R37, R381). -/
opaque Config.resetBuflen : Machine.State → BitVec 9

/-- `DIGEST[i]` after a reset event that arrives in the given state: free (R37, R381). -/
opaque Config.resetDigest : Machine.State → Nat → BitVec 8

/-- Port `rsp_status` in a state without a response: free (log entry 5). -/
opaque Config.idleRspStatus : Machine.State → BitVec 4

/-- Port `rsp_len` in a state without a response: free (log entry 5). -/
opaque Config.idleRspLen : Machine.State → BitVec 8

/-- Port `rsp_data` in a state without a response: free (log entry 5). -/
opaque Config.idleRspData : Machine.State → BitVec 1024

end Sys2Proof
end

