-- ==== Sys2Proof/Syntax.lean ====
section
/-! DEFINITION. The commands: one constructor per row of spec/opcode_table.json
(30_encoding.md R88). -/

namespace Sys2Proof

/-- A decoded command. Every row but `INIT.UNDEF` and `UPDATE` has no operand left once its row is
known, since each defined selector is a row of its own. -/
inductive Instr where
  /-- `INIT.MD5`, word 0x1000 (41_init.md R130, R131). -/
  | initMd5
  /-- `INIT.SHA1`, word 0x1100 (R130, R132). -/
  | initSha1
  /-- `INIT.SHA224`, word 0x1200 (R130, R133). -/
  | initSha224
  /-- `INIT.SHA256`, word 0x1300 (R130, R134). -/
  | initSha256
  /-- `INIT.SHA384`, word 0x1400 (R130, R135). -/
  | initSha384
  /-- `INIT.SHA512`, word 0x1500 (R130, R136). -/
  | initSha512
  /-- `INIT.SHA512_224`, word 0x1600 (R130, R137). -/
  | initSha512_224
  /-- `INIT.SHA512_256`, word 0x1700 (R130, R138). -/
  | initSha512_256
  /-- `INIT.UNDEF`, words 0x1800 to 0x1F00: the 4-bit selector, 8 to 15 (R139). -/
  | initUndef (selector : BitVec 4)
  /-- `UPDATE`, word 0x20dd: the message byte (42_update.md R150). -/
  | update (data : Byte)
  /-- `FINALIZE`, word 0x3000 (43_finalize_padding.md R170). -/
  | finalize
  /-- `TOHEX`, word 0x4000 (48_digest_format.md R326). -/
  | toHex
deriving DecidableEq, Repr

end Sys2Proof
end

