-- ==== Sys2Proof/WellFormed.lean ====
section
/-! DEFINITION. Which terms of `Instr` stand for a legal command word. -/

namespace Sys2Proof

/-- The one check: an `INIT.UNDEF` carries a selector outside the eight defined ones, 0x8 to 0xF
(30_encoding.md R84, 41_init.md R139). A `BitVec 8` is a legal message byte whatever its value
(42_update.md R150), and the other rows have no operand. -/
def Instr.wf : Instr → Bool
  | .initMd5 => true
  | .initSha1 => true
  | .initSha224 => true
  | .initSha256 => true
  | .initSha384 => true
  | .initSha512 => true
  | .initSha512_224 => true
  | .initSha512_256 => true
  | .initUndef selector => decide (8 ≤ selector.toNat)
  | .update _ => true
  | .finalize => true
  | .toHex => true

end Sys2Proof
end

