-- ==== Sys2Proof/Decode.lean ====
section
/-! DEFINITION. Decoding a command word (30_encoding.md R81 to R88), total on all 65536 words, and
the encoder. -/

namespace Sys2Proof

/-- Why a word is illegal: the four cases of 30_encoding.md R87. -/
inductive IllegalWord where
  /-- R87 (a): `OP` is 0x0 or 0x5 to 0xF. -/
  | reservedOp
  /-- R87 (b): `OP = 0x1` and `DATA ≠ 0`. -/
  | initData
  /-- R87 (c): `OP = 0x2` and `ALG ≠ 0`. -/
  | updateAlg
  /-- R87 (d): `OP` is 0x3 or 0x4 and `ALG ≠ 0` or `DATA ≠ 0`. -/
  | formatZField
deriving DecidableEq, Repr

/-- `OP = word[15:12]` (R81). -/
def opField (c : Word16) : BitVec 4 := c.extractLsb' 12 4

/-- `ALG = word[11:8]` (R81). -/
def algField (c : Word16) : BitVec 4 := c.extractLsb' 8 4

/-- `DATA = word[7:0]` (R81). -/
def dataField (c : Word16) : Byte := c.extractLsb' 0 8

/-- The INIT row of a selector (R84). -/
def initRow (selector : BitVec 4) : Instr :=
  match selector.toNat with
  | 0 => .initMd5
  | 1 => .initSha1
  | 2 => .initSha224
  | 3 => .initSha256
  | 4 => .initSha384
  | 5 => .initSha512
  | 6 => .initSha512_224
  | 7 => .initSha512_256
  | _ => .initUndef selector

/-- The INIT row of a defined algorithm (R84, R88). -/
def initCommandOf : Alg → Instr
  | .md5 => .initMd5
  | .sha1 => .initSha1
  | .sha224 => .initSha224
  | .sha256 => .initSha256
  | .sha384 => .initSha384
  | .sha512 => .initSha512
  | .sha512_224 => .initSha512_224
  | .sha512_256 => .initSha512_256

/-- The decoding algorithm of R86; a word it rejects is illegal by one of the cases of R87. -/
def decode (c : Word16) : Except IllegalWord Instr :=
  if opField c = 0x1#4 then
    if dataField c = 0 then .ok (initRow (algField c)) else .error .initData
  else if opField c = 0x2#4 then
    if algField c = 0 then .ok (.update (dataField c)) else .error .updateAlg
  else if opField c = 0x3#4 then
    if algField c = 0 ∧ dataField c = 0 then .ok .finalize else .error .formatZField
  else if opField c = 0x4#4 then
    if algField c = 0 ∧ dataField c = 0 then .ok .toHex else .error .formatZField
  else .error .reservedOp

/-- The word of three fields (R81). -/
def commandWord (op alg : BitVec 4) (data : Byte) : Word16 := op ++ alg ++ data

/-- The word of a well-formed command, from the rows of R88. -/
def encode : Instr → Word16
  | .initMd5 => commandWord 0x1 0x0 0x00
  | .initSha1 => commandWord 0x1 0x1 0x00
  | .initSha224 => commandWord 0x1 0x2 0x00
  | .initSha256 => commandWord 0x1 0x3 0x00
  | .initSha384 => commandWord 0x1 0x4 0x00
  | .initSha512 => commandWord 0x1 0x5 0x00
  | .initSha512_224 => commandWord 0x1 0x6 0x00
  | .initSha512_256 => commandWord 0x1 0x7 0x00
  | .initUndef selector => commandWord 0x1 selector 0x00
  | .update data => commandWord 0x2 0x0 data
  | .finalize => commandWord 0x3 0x0 0x00
  | .toHex => commandWord 0x4 0x0 0x00

/-- A row of the command table of R88: a word `c` selects it when `c AND mask = pattern`. -/
structure OpcodeRow where
  mnemonic : String
  pattern : Word16
  mask : Word16
deriving DecidableEq, Repr

/-- The complete command table of R88, in its order. -/
def opcodeTable : List OpcodeRow :=
  [⟨"INIT.MD5", 0x1000, 0xFFFF⟩, ⟨"INIT.SHA1", 0x1100, 0xFFFF⟩,
   ⟨"INIT.SHA224", 0x1200, 0xFFFF⟩, ⟨"INIT.SHA256", 0x1300, 0xFFFF⟩,
   ⟨"INIT.SHA384", 0x1400, 0xFFFF⟩, ⟨"INIT.SHA512", 0x1500, 0xFFFF⟩,
   ⟨"INIT.SHA512_224", 0x1600, 0xFFFF⟩, ⟨"INIT.SHA512_256", 0x1700, 0xFFFF⟩] ++
  [⟨"INIT.UNDEF", 0x1800, 0xF8FF⟩, ⟨"UPDATE", 0x2000, 0xFF00⟩,
   ⟨"FINALIZE", 0x3000, 0xFFFF⟩, ⟨"TOHEX", 0x4000, 0xFFFF⟩]

/-- A word selects a row (R88). -/
def OpcodeRow.selects (row : OpcodeRow) (c : Word16) : Bool := c &&& row.mask == row.pattern

/-- The mnemonic of a command's row (R88). -/
def Instr.mnemonic : Instr → String
  | .initMd5 => "INIT.MD5"
  | .initSha1 => "INIT.SHA1"
  | .initSha224 => "INIT.SHA224"
  | .initSha256 => "INIT.SHA256"
  | .initSha384 => "INIT.SHA384"
  | .initSha512 => "INIT.SHA512"
  | .initSha512_224 => "INIT.SHA512_224"
  | .initSha512_256 => "INIT.SHA512_256"
  | .initUndef _ => "INIT.UNDEF"
  | .update _ => "UPDATE"
  | .finalize => "FINALIZE"
  | .toHex => "TOHEX"

/-- The command the decoder reads from the number `w`. Every command is exactly 16 bits (R81), so a
number of more than 16 bits is no command word; bit 0 of the number is bit 0 of the word (R10). -/
def decodeTableWord (_nbits w : Nat) : Option Instr :=
  if w < 65536 then
    match decode (BitVec.ofNat 16 w) with
    | .ok i => some i
    | .error _ => none
  else none

end Sys2Proof
end

