-- ==== Sys2Proof/Machine/BitUtil.lean ====
section
/-! DEFINITION. The bit utilities (40_bit_utilities.md R110 to R118). `x +_w y` (R110) is `x + y` on
`BitVec w`, and `AND`, `OR`, `XOR`, `NOT_w` (R111) are `&&&`, `|||`, `^^^`, `~~~`. -/

namespace Sys2Proof.Machine

/-- `ROTL_w(x, s)` (R112). An amount of `w` or more, which no rule uses, is taken modulo `w`
(log entry 12). -/
def rotl {w : Nat} (x : BitVec w) (s : Nat) : BitVec w := x.rotateLeft s

/-- `ROTR_w(x, s)` (R113). -/
def rotr {w : Nat} (x : BitVec w) (s : Nat) : BitVec w := x.rotateRight s

/-- `SHR_w(x, s)`, the logical shift (R114). -/
def shr {w : Nat} (x : BitVec w) (s : Nat) : BitVec w := x >>> s

/-- Byte `k` of a word, byte 0 its least significant. -/
def byteOf {w : Nat} (x : BitVec w) (k : Nat) : Byte := x.extractLsb' (8 * k) 8

/-- `MIRROR16(x)` (R116). -/
def mirror16 (x : BitVec 16) : BitVec 16 := byteOf x 0 ++ byteOf x 1

/-- `MIRROR32(x)` (R116). -/
def mirror32 (x : Word32) : Word32 := byteOf x 0 ++ byteOf x 1 ++ byteOf x 2 ++ byteOf x 3

/-- `MIRROR64(x)` (R116). -/
def mirror64 (x : Word64) : Word64 :=
  byteOf x 0 ++ byteOf x 1 ++ byteOf x 2 ++ byteOf x 3 ++
  byteOf x 4 ++ byteOf x 5 ++ byteOf x 6 ++ byteOf x 7

/-- `LE32dec` of the bytes `m0, m1, m2, m3` (R117). -/
def le32dec (m0 m1 m2 m3 : Byte) : Word32 := m3 ++ m2 ++ m1 ++ m0

/-- `BE32dec` of the bytes `m0, m1, m2, m3` (R117). -/
def be32dec (m0 m1 m2 m3 : Byte) : Word32 := m0 ++ m1 ++ m2 ++ m3

/-- `BE64dec` of the bytes `m0` to `m7` (R117). -/
def be64dec (m0 m1 m2 m3 m4 m5 m6 m7 : Byte) : Word64 :=
  m0 ++ m1 ++ m2 ++ m3 ++ m4 ++ m5 ++ m6 ++ m7

/-- `LE32enc(x)` (R118). -/
def le32enc (x : Word32) : List Byte := [byteOf x 0, byteOf x 1, byteOf x 2, byteOf x 3]

/-- `BE32enc(x)` (R118). -/
def be32enc (x : Word32) : List Byte := [byteOf x 3, byteOf x 2, byteOf x 1, byteOf x 0]

/-- `LE64enc(x)` (R118). -/
def le64enc (x : Word64) : List Byte :=
  [byteOf x 0, byteOf x 1, byteOf x 2, byteOf x 3, byteOf x 4, byteOf x 5, byteOf x 6, byteOf x 7]

/-- `BE64enc(x)` (R118). -/
def be64enc (x : Word64) : List Byte :=
  [byteOf x 7, byteOf x 6, byteOf x 5, byteOf x 4, byteOf x 3, byteOf x 2, byteOf x 1, byteOf x 0]

/-- `BE128enc(x) = BE64enc(x[127:64]) ‖ BE64enc(x[63:0])` (R118). -/
def be128enc (x : BitVec 128) : List Byte :=
  be64enc (x.extractLsb' 64 64) ++ be64enc (x.extractLsb' 0 64)

/-- Byte `i` of a block. A block a compression is given holds every byte it asks for
(20_memory.md R60, R61); past the end of a shorter list the byte is 0 (log entry 13). -/
def blockByte (M : List Byte) (i : Nat) : Byte := M.getD i 0

/-- Word `j` of a block, little-endian, 32 bits (20_memory.md R54). -/
def le32word (M : List Byte) (j : Nat) : Word32 :=
  le32dec (blockByte M (4 * j)) (blockByte M (4 * j + 1)) (blockByte M (4 * j + 2)) (blockByte M (4 * j + 3))

/-- Word `j` of a block, big-endian, 32 bits (20_memory.md R54). -/
def be32word (M : List Byte) (j : Nat) : Word32 :=
  be32dec (blockByte M (4 * j)) (blockByte M (4 * j + 1)) (blockByte M (4 * j + 2)) (blockByte M (4 * j + 3))

/-- Word `j` of a block, big-endian, 64 bits (20_memory.md R54). -/
def be64word (M : List Byte) (j : Nat) : Word64 :=
  be64dec (blockByte M (8 * j)) (blockByte M (8 * j + 1)) (blockByte M (8 * j + 2)) (blockByte M (8 * j + 3))
    (blockByte M (8 * j + 4)) (blockByte M (8 * j + 5)) (blockByte M (8 * j + 6)) (blockByte M (8 * j + 7))

end Sys2Proof.Machine
end

