-- ==== Sys2Proof/Machine/Params.lean ====
section
/-! DEFINITION. The parameters of each algorithm, the table of 00_scope.md R8, and the numeric codes
of `ALG`, `PHASE` and the status (R8, 10_state.md R24, 30_encoding.md R92). -/

namespace Sys2Proof

/-- Column `code` of R8: the value of register `ALG`. -/
def Alg.code : Alg → BitVec 3
  | .md5 => 0
  | .sha1 => 1
  | .sha224 => 2
  | .sha256 => 3
  | .sha384 => 4
  | .sha512 => 5
  | .sha512_224 => 6
  | .sha512_256 => 7

/-- The algorithm of a code: all eight values of the 3-bit register are codes (R8). -/
def Alg.ofCode (code : BitVec 3) : Alg :=
  match code.toNat with
  | 0 => .md5
  | 1 => .sha1
  | 2 => .sha224
  | 3 => .sha256
  | 4 => .sha384
  | 5 => .sha512
  | 6 => .sha512_224
  | _ => .sha512_256

namespace Machine

/-- The four compression functions (00_scope.md R2). -/
inductive CompressUnit where
  | md5Compress
  | sha1Compress
  | sha256Compress
  | sha512Compress
deriving DecidableEq, Repr

end Machine

/-- Column `unit` of R8: the compression function bound to a context. -/
def Alg.unit : Alg → Machine.CompressUnit
  | .md5 => .md5Compress
  | .sha1 => .sha1Compress
  | .sha224 => .sha256Compress
  | .sha256 => .sha256Compress
  | .sha384 => .sha512Compress
  | .sha512 => .sha512Compress
  | .sha512_224 => .sha512Compress
  | .sha512_256 => .sha512Compress

/-- Column `w` of R8: the word size in bits. -/
def Alg.wordBits (alg : Alg) : Nat :=
  match alg.unit with
  | .md5Compress => 32
  | .sha1Compress => 32
  | .sha256Compress => 32
  | .sha512Compress => 64

/-- Column `n` of R8: the number of state words. -/
def Alg.stateWords (alg : Alg) : Nat :=
  match alg.unit with
  | .md5Compress => 4
  | .sha1Compress => 5
  | .sha256Compress => 8
  | .sha512Compress => 8

/-- Column `B` of R8: BlockSize in bytes. -/
def Alg.blockSize (alg : Alg) : Nat :=
  match alg.unit with
  | .md5Compress => 64
  | .sha1Compress => 64
  | .sha256Compress => 64
  | .sha512Compress => 128

/-- Column `L` of R8: LengthFieldSize in bytes. -/
def Alg.lengthBytes (alg : Alg) : Nat :=
  match alg.unit with
  | .md5Compress => 8
  | .sha1Compress => 8
  | .sha256Compress => 8
  | .sha512Compress => 16

/-- Column `c = 8·L` of R8: the width of `MessageLengthBits` in bits. -/
def Alg.counterBits (alg : Alg) : Nat := 8 * alg.lengthBytes

/-- Column `D` of R8: the digest length in bytes. -/
def Alg.digestBytes : Alg → Nat
  | .md5 => 16
  | .sha1 => 20
  | .sha224 => 28
  | .sha256 => 32
  | .sha384 => 48
  | .sha512 => 64
  | .sha512_224 => 28
  | .sha512_256 => 32

/-- Column `X = 2·D` of R8: the hex string length in characters. -/
def Alg.hexChars (alg : Alg) : Nat := 2 * alg.digestBytes

/-- Column `rounds` of R8: sequencer steps per block. -/
def Alg.rounds (alg : Alg) : Nat :=
  match alg.unit with
  | .md5Compress => 64
  | .sha1Compress => 80
  | .sha256Compress => 64
  | .sha512Compress => 80

namespace Machine

/-- The 2-bit value of `PHASE` (10_state.md R24). -/
def Phase.code : Phase → BitVec 2
  | .uninit => 0
  | .active => 1
  | .done => 2
  | .failed => 3

/-- The 4-bit status code (30_encoding.md R92). -/
def Status.code : Status → BitVec 4
  | .ok => 0
  | .messageTooLarge => 1
  | .invalidAlgorithmSelector => 2
  | .invalidState => 3
  | .illegalCommand => 4

/-- The status an error reports (60_exceptions.md R340). -/
def ErrorKind.status : ErrorKind → Status
  | .messageTooLarge => .messageTooLarge
  | .invalidAlgorithmSelector => .invalidAlgorithmSelector
  | .invalidState => .invalidState
  | .illegalCommand => .illegalCommand

end Machine

end Sys2Proof
end

