-- ==== Sys2Proof/Machine/Md5.lean ====
section
/-! DEFINITION. MD5Compress (44_md5_compress.md). All words are 32 bits and `+` is modulo `2^32`. The
working registers `a, b, c, d` and the words `X` are locals of one compression (10_state.md R30, R31,
log entry 8). -/

namespace Sys2Proof.Machine

/-- The working registers, and the four state words (R200, 10_state.md R30). -/
structure Md5Regs where
  a : Word32
  b : Word32
  c : Word32
  d : Word32
deriving DecidableEq, Repr

/-- `F(x, y, z)` (R210). -/
def md5F (x y z : Word32) : Word32 := (x &&& y) ||| (~~~x &&& z)

/-- `G(x, y, z)` (R210). -/
def md5FunG (x y z : Word32) : Word32 := (x &&& z) ||| (y &&& ~~~z)

/-- `H(x, y, z)` (R210). -/
def md5H (x y z : Word32) : Word32 := x ^^^ y ^^^ z

/-- `I(x, y, z)` (R210). -/
def md5I (x y z : Word32) : Word32 := y ^^^ (x ||| ~~~z)

/-- The load of the message words, `X[0..15]` (R201). -/
def md5Load (M : List Byte) : List Word32 := (List.range 16).map (le32word M)

/-- The data flow common to the four step operations (R205), with the value `f` of the round's
function: `u <- a + f + X[g(i)] + T[i]`, then simultaneously `a <- d`, `d <- c`, `c <- b`,
`b <- b + ROTL_32(u, s(i))`. -/
def md5Rotate (f : Word32) (X : List Word32) (i : Nat) (r : Md5Regs) : Md5Regs :=
  let u := r.a + f + X.getD (md5G i) 0 + md5T.getD i 0
  { a := r.d, b := r.b + rotl u (md5S i), c := r.b, d := r.c }

/-- The FF step (R205). -/
def md5StepFF (X : List Word32) (i : Nat) (r : Md5Regs) : Md5Regs := md5Rotate (md5F r.b r.c r.d) X i r

/-- The GG step (R206). -/
def md5StepGG (X : List Word32) (i : Nat) (r : Md5Regs) : Md5Regs := md5Rotate (md5FunG r.b r.c r.d) X i r

/-- The HH step (R207). -/
def md5StepHH (X : List Word32) (i : Nat) (r : Md5Regs) : Md5Regs := md5Rotate (md5H r.b r.c r.d) X i r

/-- The II step (R208). -/
def md5StepII (X : List Word32) (i : Nat) (r : Md5Regs) : Md5Regs := md5Rotate (md5I r.b r.c r.d) X i r

/-- Step `i`, selected by the round counter (30_encoding.md R96). -/
def md5Step (X : List Word32) (r : Md5Regs) (i : Nat) : Md5Regs :=
  if i ≤ 15 then md5StepFF X i r
  else if i ≤ 31 then md5StepGG X i r
  else if i ≤ 47 then md5StepHH X i r
  else md5StepII X i r

/-- The working registers after the first `k` steps (R200); the load is R204. -/
def md5Steps (Hin : Md5Regs) (M : List Byte) (k : Nat) : Md5Regs :=
  (List.range k).foldl (md5Step (md5Load M)) Hin

/-- `MD5Compress(Hin, M)`: load, 64 steps, final addition (R200, R209). -/
def md5Compress (Hin : Md5Regs) (M : List Byte) : Md5Regs :=
  let r := md5Steps Hin M 64
  { a := Hin.a + r.a, b := Hin.b + r.b, c := Hin.c + r.c, d := Hin.d + r.d }

end Sys2Proof.Machine
end

