-- ==== Sys2Proof/Machine/Sha1.lean ====
section
/-! DEFINITION. SHA1Compress (45_sha1_compress.md). All words are 32 bits and `+` is modulo `2^32`.
The working registers and the schedule `W` are locals of one compression (10_state.md R30, R31, log
entry 8). -/

namespace Sys2Proof.Machine

/-- The working registers, and the five state words (R230, 10_state.md R30). -/
structure Sha1Regs where
  a : Word32
  b : Word32
  c : Word32
  d : Word32
  e : Word32
deriving DecidableEq, Repr

/-- `Ch(x, y, z)` (R235). -/
def sha1Ch (x y z : Word32) : Word32 := (x &&& y) ||| (~~~x &&& z)

/-- `Parity(x, y, z)` (R235). -/
def sha1Parity (x y z : Word32) : Word32 := x ^^^ y ^^^ z

/-- `Maj(x, y, z)` (R235). -/
def sha1Maj (x y z : Word32) : Word32 := (x &&& y) ||| (x &&& z) ||| (y &&& z)

/-- The schedule word `W[t]` from the words before it, `t` being how many there are (R232). -/
def sha1NextWord (W : List Word32) : Word32 :=
  let t := W.length
  rotl (W.getD (t - 3) 0 ^^^ W.getD (t - 8) 0 ^^^ W.getD (t - 14) 0 ^^^ W.getD (t - 16) 0) 1

/-- `k` more words of the schedule (R232). -/
def sha1Expand : Nat → List Word32 → List Word32
  | 0, W => W
  | k + 1, W => sha1Expand k (W ++ [sha1NextWord W])

/-- The schedule `W[0..79]`: sixteen loaded words (R231), then 64 expanded ones (R232). -/
def sha1Schedule (M : List Byte) : List Word32 := sha1Expand 64 ((List.range 16).map (be32word M))

/-- The data flow common to the four round operations (R236), with the value `f` of the round's
function and its constant `K`. -/
def sha1Shift (f K Wt : Word32) (r : Sha1Regs) : Sha1Regs :=
  let u := rotl r.a 5 + f + r.e + K + Wt
  { a := u, b := r.a, c := rotl r.b 30, d := r.c, e := r.d }

/-- The round with `Ch` and `K1[0]` (R236). -/
def sha1RoundCh (Wt : Word32) (r : Sha1Regs) : Sha1Regs :=
  sha1Shift (sha1Ch r.b r.c r.d) (sha1K.getD 0 0) Wt r

/-- The round with `Parity` and `K1[1]` (R237). -/
def sha1RoundParity1 (Wt : Word32) (r : Sha1Regs) : Sha1Regs :=
  sha1Shift (sha1Parity r.b r.c r.d) (sha1K.getD 1 0) Wt r

/-- The round with `Maj` and `K1[2]` (R238). -/
def sha1RoundMaj (Wt : Word32) (r : Sha1Regs) : Sha1Regs :=
  sha1Shift (sha1Maj r.b r.c r.d) (sha1K.getD 2 0) Wt r

/-- The round with `Parity` and `K1[3]` (R239). -/
def sha1RoundParity3 (Wt : Word32) (r : Sha1Regs) : Sha1Regs :=
  sha1Shift (sha1Parity r.b r.c r.d) (sha1K.getD 3 0) Wt r

/-- Round `t`, selected by the round counter (30_encoding.md R96), on the schedule word `Wt`. -/
def sha1RoundWith (t : Nat) (Wt : Word32) (r : Sha1Regs) : Sha1Regs :=
  if t ≤ 19 then sha1RoundCh Wt r
  else if t ≤ 39 then sha1RoundParity1 Wt r
  else if t ≤ 59 then sha1RoundMaj Wt r
  else sha1RoundParity3 Wt r

/-- Round `t` with its word `W[t]`. -/
def sha1Round (W : List Word32) (r : Sha1Regs) (t : Nat) : Sha1Regs := sha1RoundWith t (W.getD t 0) r

/-- The working registers after the first `k` rounds (R230); the load is R234. -/
def sha1Rounds (Hin : Sha1Regs) (M : List Byte) (k : Nat) : Sha1Regs :=
  (List.range k).foldl (sha1Round (sha1Schedule M)) Hin

/-- The final addition (R240). -/
def sha1Add (Hin r : Sha1Regs) : Sha1Regs :=
  { a := Hin.a + r.a, b := Hin.b + r.b, c := Hin.c + r.c, d := Hin.d + r.d, e := Hin.e + r.e }

/-- `SHA1Compress(Hin, M)`: schedule, load, 80 rounds, final addition (R230). -/
def sha1Compress (Hin : Sha1Regs) (M : List Byte) : Sha1Regs := sha1Add Hin (sha1Rounds Hin M 80)

end Sys2Proof.Machine
end

