-- ==== Sys2Proof/Machine/Sha2.lean ====
section
/-! DEFINITION. What SHA256Compress and SHA512Compress share: the eight working registers, `CH`,
`MAJ`, the register update and the final addition, at a word width `w` of 32 or 64. -/

namespace Sys2Proof.Machine

/-- The working registers `a … h`, and the eight state words (46_sha256_compress.md R264,
47_sha512_compress.md R294). -/
structure Sha2Regs (w : Nat) where
  a : BitVec w
  b : BitVec w
  c : BitVec w
  d : BitVec w
  e : BitVec w
  f : BitVec w
  g : BitVec w
  h : BitVec w
deriving DecidableEq, Repr

/-- `CH(x, y, z)`: R265 at 32 bits, R295 at 64. -/
def sha2Ch {w : Nat} (x y z : BitVec w) : BitVec w := (x &&& y) ^^^ (~~~x &&& z)

/-- `MAJ(x, y, z)`: R266 at 32 bits, R296 at 64. -/
def sha2Maj {w : Nat} (x y z : BitVec w) : BitVec w := (x &&& y) ^^^ (x &&& z) ^^^ (y &&& z)

/-- The rotation of the eight registers by `T1` and `T2`, simultaneous (R269, R299). -/
def sha2Rotate {w : Nat} (T1 T2 : BitVec w) (r : Sha2Regs w) : Sha2Regs w :=
  { a := T1 + T2, b := r.a, c := r.b, d := r.c, e := r.d + T1, f := r.e, g := r.f, h := r.g }

/-- The final addition (R270, R300). -/
def sha2Add {w : Nat} (Hin r : Sha2Regs w) : Sha2Regs w :=
  { a := Hin.a + r.a, b := Hin.b + r.b, c := Hin.c + r.c, d := Hin.d + r.d,
    e := Hin.e + r.e, f := Hin.f + r.f, g := Hin.g + r.g, h := Hin.h + r.h }

end Sys2Proof.Machine
end

