-- ==== Sys2Proof/Machine/Sha256.lean ====
section
/-! DEFINITION. SHA256Compress (46_sha256_compress.md). All words are 32 bits and `+` is modulo `2^32`. The working
registers and the schedule `W` are locals of one compression (10_state.md R30, R31, log entry 8). -/

namespace Sys2Proof.Machine

/-- `BSIG0(x)` (R267). -/
def sha256BigSigma0 (x : Word32) : Word32 := rotr x 2 ^^^ rotr x 13 ^^^ rotr x 22

/-- `BSIG1(x)` (R267). -/
def sha256BigSigma1 (x : Word32) : Word32 := rotr x 6 ^^^ rotr x 11 ^^^ rotr x 25

/-- `SSIG0(x)` (R268). -/
def sha256SmallSigma0 (x : Word32) : Word32 := rotr x 7 ^^^ rotr x 18 ^^^ shr x 3

/-- `SSIG1(x)` (R268). -/
def sha256SmallSigma1 (x : Word32) : Word32 := rotr x 17 ^^^ rotr x 19 ^^^ shr x 10

/-- The schedule word `W[t]` from the words before it, `t` being how many there are (R262). -/
def sha256NextWord (W : List Word32) : Word32 :=
  let t := W.length
  sha256SmallSigma1 (W.getD (t - 2) 0) + W.getD (t - 7) 0 + sha256SmallSigma0 (W.getD (t - 15) 0) + W.getD (t - 16) 0

/-- `k` more words of the schedule (R262). -/
def sha256Expand : Nat → List Word32 → List Word32
  | 0, W => W
  | k + 1, W => sha256Expand k (W ++ [sha256NextWord W])

/-- The schedule `W[0..63]`: sixteen loaded words (R261), then 48 expanded ones (R262). -/
def sha256Schedule (M : List Byte) : List Word32 := sha256Expand 48 ((List.range 16).map (be32word M))

/-- Round `t` on the schedule word `Wt` (R269). -/
def sha256RoundWith (t : Nat) (Wt : Word32) (r : Sha2Regs 32) : Sha2Regs 32 :=
  let T1 := r.h + sha256BigSigma1 r.e + sha2Ch r.e r.f r.g + sha256K.getD t 0 + Wt
  let T2 := sha256BigSigma0 r.a + sha2Maj r.a r.b r.c
  sha2Rotate T1 T2 r

/-- Round `t` with its word `W[t]` (R269). -/
def sha256Round (W : List Word32) (r : Sha2Regs 32) (t : Nat) : Sha2Regs 32 := sha256RoundWith t (W.getD t 0) r

/-- The working registers after the first `k` rounds (R260); the load is R264. -/
def sha256Rounds (Hin : Sha2Regs 32) (M : List Byte) (k : Nat) : Sha2Regs 32 :=
  (List.range k).foldl (sha256Round (sha256Schedule M)) Hin

/-- `SHA256Compress(Hin, M)`: schedule, load, 64 rounds, final addition (R260, R270). -/
def sha256Compress (Hin : Sha2Regs 32) (M : List Byte) : Sha2Regs 32 := sha2Add Hin (sha256Rounds Hin M 64)

end Sys2Proof.Machine
end

