-- ==== Sys2Proof/Machine/Sha512.lean ====
section
/-! DEFINITION. SHA512Compress (47_sha512_compress.md). All words are 64 bits and `+` is modulo `2^64`. The working
registers and the schedule `W` are locals of one compression (10_state.md R30, R31, log entry 8). -/

namespace Sys2Proof.Machine

/-- `BSIG0(x)` (R297). -/
def sha512BigSigma0 (x : Word64) : Word64 := rotr x 28 ^^^ rotr x 34 ^^^ rotr x 39

/-- `BSIG1(x)` (R297). -/
def sha512BigSigma1 (x : Word64) : Word64 := rotr x 14 ^^^ rotr x 18 ^^^ rotr x 41

/-- `SSIG0(x)` (R298). -/
def sha512SmallSigma0 (x : Word64) : Word64 := rotr x 1 ^^^ rotr x 8 ^^^ shr x 7

/-- `SSIG1(x)` (R298). -/
def sha512SmallSigma1 (x : Word64) : Word64 := rotr x 19 ^^^ rotr x 61 ^^^ shr x 6

/-- The schedule word `W[t]` from the words before it, `t` being how many there are (R292). -/
def sha512NextWord (W : List Word64) : Word64 :=
  let t := W.length
  sha512SmallSigma1 (W.getD (t - 2) 0) + W.getD (t - 7) 0 + sha512SmallSigma0 (W.getD (t - 15) 0) + W.getD (t - 16) 0

/-- `k` more words of the schedule (R292). -/
def sha512Expand : Nat → List Word64 → List Word64
  | 0, W => W
  | k + 1, W => sha512Expand k (W ++ [sha512NextWord W])

/-- The schedule `W[0..79]`: sixteen loaded words (R291), then 64 expanded ones (R292). -/
def sha512Schedule (M : List Byte) : List Word64 := sha512Expand 64 ((List.range 16).map (be64word M))

/-- Round `t` on the schedule word `Wt` (R299). -/
def sha512RoundWith (t : Nat) (Wt : Word64) (r : Sha2Regs 64) : Sha2Regs 64 :=
  let T1 := r.h + sha512BigSigma1 r.e + sha2Ch r.e r.f r.g + sha512K.getD t 0 + Wt
  let T2 := sha512BigSigma0 r.a + sha2Maj r.a r.b r.c
  sha2Rotate T1 T2 r

/-- Round `t` with its word `W[t]` (R299). -/
def sha512Round (W : List Word64) (r : Sha2Regs 64) (t : Nat) : Sha2Regs 64 := sha512RoundWith t (W.getD t 0) r

/-- The working registers after the first `k` rounds (R290); the load is R294. -/
def sha512Rounds (Hin : Sha2Regs 64) (M : List Byte) (k : Nat) : Sha2Regs 64 :=
  (List.range k).foldl (sha512Round (sha512Schedule M)) Hin

/-- `SHA512Compress(Hin, M)`: schedule, load, 80 rounds, final addition (R290, R300). -/
def sha512Compress (Hin : Sha2Regs 64) (M : List Byte) : Sha2Regs 64 := sha2Add Hin (sha512Rounds Hin M 80)

end Sys2Proof.Machine
end

