-- ==== Sys2Proof/Machine/Compress.lean ====
section
/-! DEFINITION. `Compress(alg, Hin, M)`, the dispatch to the four compression functions
(20_memory.md R60), between the eight 64-bit registers `H` and each unit's own state words. -/

namespace Sys2Proof.Machine

/-- The 32-bit architectural word held in a 64-bit register (10_state.md R22). -/
def lowWord (x : Word64) : Word32 := x.setWidth 32

/-- A 32-bit word in a 64-bit register, bits 63:32 zero (R22). -/
def zextWord (x : Word32) : Word64 := x.setWidth 64

/-- `H[0..3]` as the state words of MD5Compress. -/
def md5In (h : Vector Word64 8) : Md5Regs :=
  { a := lowWord h[0], b := lowWord h[1], c := lowWord h[2], d := lowWord h[3] }

/-- The state words of MD5Compress written to `H[0..3]`; `H[4..7]` keep their values. -/
def md5Out (h : Vector Word64 8) (o : Md5Regs) : Vector Word64 8 :=
  #v[zextWord o.a, zextWord o.b, zextWord o.c, zextWord o.d, h[4], h[5], h[6], h[7]]

/-- `H[0..4]` as the state words of SHA1Compress. -/
def sha1In (h : Vector Word64 8) : Sha1Regs :=
  { a := lowWord h[0], b := lowWord h[1], c := lowWord h[2], d := lowWord h[3], e := lowWord h[4] }

/-- The state words of SHA1Compress written to `H[0..4]`; `H[5..7]` keep their values. -/
def sha1Out (h : Vector Word64 8) (o : Sha1Regs) : Vector Word64 8 :=
  #v[zextWord o.a, zextWord o.b, zextWord o.c, zextWord o.d, zextWord o.e, h[5], h[6], h[7]]

/-- `H[0..7]` as the state words of SHA256Compress. -/
def sha256In (h : Vector Word64 8) : Sha2Regs 32 :=
  { a := lowWord h[0], b := lowWord h[1], c := lowWord h[2], d := lowWord h[3],
    e := lowWord h[4], f := lowWord h[5], g := lowWord h[6], h := lowWord h[7] }

/-- The state words of SHA256Compress written to `H[0..7]`. -/
def sha256Out (o : Sha2Regs 32) : Vector Word64 8 :=
  #v[zextWord o.a, zextWord o.b, zextWord o.c, zextWord o.d,
     zextWord o.e, zextWord o.f, zextWord o.g, zextWord o.h]

/-- `H[0..7]` as the state words of SHA512Compress. -/
def sha512In (h : Vector Word64 8) : Sha2Regs 64 :=
  { a := h[0], b := h[1], c := h[2], d := h[3], e := h[4], f := h[5], g := h[6], h := h[7] }

/-- The state words of SHA512Compress written to `H[0..7]`. -/
def sha512Out (o : Sha2Regs 64) : Vector Word64 8 := #v[o.a, o.b, o.c, o.d, o.e, o.f, o.g, o.h]

/-- `H[0..n−1] <- Compress(ALG, H[0..n−1], M)`: the unit is the one bound to the algorithm, and
`H[n..7]` are not passed in (R60). -/
def compress (alg : Alg) (h : Vector Word64 8) (M : List Byte) : Vector Word64 8 :=
  match alg.unit with
  | .md5Compress => md5Out h (md5Compress (md5In h) M)
  | .sha1Compress => sha1Out h (sha1Compress (sha1In h) M)
  | .sha256Compress => sha256Out (sha256Compress (sha256In h) M)
  | .sha512Compress => sha512Out (sha512Compress (sha512In h) M)

end Sys2Proof.Machine
end

