-- ==== Sys2Proof/Machine/Ops.lean ====
section
/-! DEFINITION. The shared operations: the buffer memory, the response, and taking an error. -/

namespace Sys2Proof.Machine

/-- The byte at an address: what is listed for it, else what an unlisted address reads as. -/
def Memory.read : Memory → Nat → Byte
  | [], _ => Memory.unlisted
  | (b, v) :: m, a => if a = b then v else Memory.read m a

/-- Write one byte, keeping the canonical form: writing what an unlisted address reads as removes the
entry. -/
def Memory.write : Memory → Nat → Byte → Memory
  | [], a, v => if v = Memory.unlisted then [] else [(a, v)]
  | (b, w) :: m, a, v =>
    if a < b then
      if v = Memory.unlisted then (b, w) :: m else (a, v) :: (b, w) :: m
    else if a = b then
      if v = Memory.unlisted then m else (a, v) :: m
    else (b, w) :: Memory.write m a v

/-- Write a byte sequence from an address up. -/
def Memory.writeBytes : Memory → Nat → List Byte → Memory
  | m, _, [] => m
  | m, a, v :: vs => Memory.writeBytes (m.write a v) (a + 1) vs

/-- The byte sequence of `n` bytes from an address up. -/
def Memory.readBytes (m : Memory) (a n : Nat) : List Byte := (List.range n).map fun i => m.read (a + i)

/-- Entries from `lo` on: addresses strictly rising, below 256, no entry that holds what an unlisted
address reads as. -/
def Memory.wfFrom : Nat → Memory → Bool
  | _, [] => true
  | lo, (a, v) :: m => decide (lo ≤ a) && decide (a < 256) && decide (v ≠ Memory.unlisted) && Memory.wfFrom (a + 1) m

/-- The canonical form of the buffer memory. -/
def Memory.wf (m : Memory) : Bool := Memory.wfFrom 0 m

/-- Every one of the 256 bytes 0x00: the memory that INIT and FINALIZE leave (41_init.md R130,
43_finalize_padding.md R176). An unlisted address reads as 0x00, so nothing is listed. -/
def Memory.zeroed : Memory := []

/-- `MemRead(addr, n)` (00_scope.md R11): none when `addr + n > 256`, an address that does not exist. -/
def memRead (addr n : Nat) (m : Memory) : Option (List Byte) :=
  if addr + n ≤ 256 then some (m.readBytes addr n) else none

/-- `MemWrite(addr, n, v)` for the `n` bytes of `v` (R11): none when `addr + n > 256`. -/
def memWrite (addr : Nat) (v : List Byte) (m : Memory) : Option Memory :=
  if addr + v.length ≤ 256 then some (m.writeBytes addr v) else none

/-- `respond (status, len = number of payload bytes, data)` (30_encoding.md R90). -/
def respond (status : Status) (data : List Byte) (s : State) : State :=
  { s with rsp := some { status := status, len := BitVec.ofNat 8 data.length, data := data } }

/-- `raise E` (60_exceptions.md R345): `ERR` takes the code unless the context has failed before,
`PHASE` becomes FAILED, the response carries the code and no payload, and nothing else changes. It is
the one way an error is taken. There is no return from it but a successful INIT (R350). -/
def raise (e : ErrorKind) (s : State) : State :=
  respond e.status []
    { s with
      err := if s.phase = .failed then s.err else e.status
      phase := .failed }

/-- What a command whose buffer accesses are all in range answers, and the fault of one that is not. -/
def orBufferFault : Option State → Host.Outcome State Fault Refusal
  | some s => .next s
  | none => .fault .bufferRange

/-- `H[0..n−1] <- Compress(ALG, H[0..n−1], MemRead(k·B, B))` (20_memory.md R60). -/
def compressBlock (k : Nat) (s : State) : Option State := do
  let M ← memRead (k * s.alg.blockSize) s.alg.blockSize s.buf
  pure { s with h := compress s.alg s.h M }

end Sys2Proof.Machine
end

