-- ==== Sys2Proof/Machine/Flags.lean ====
section
/-! DEFINITION. The checks a command makes before it writes anything (60_exceptions.md R355). The core
has no condition codes, carry, overflow or zero flags (10_state.md R35); these checks and the codes of
`PHASE` and `ERR` are all the status there is. -/

namespace Sys2Proof.Machine

/-- The increment of `LEN` by one byte would overflow the counter: `LEN + 8 > 2^c − 1`, computed
without wrap (42_update.md R153). -/
def lengthWouldOverflow (alg : Alg) (len : BitVec 128) : Bool :=
  decide (len.toNat + 8 > 2 ^ alg.counterBits - 1)

/-- The padded length `P` of a remainder of `r` bytes: one block when the 0x80 byte and the length
field fit after them, else two (43_finalize_padding.md R174). -/
def paddedLength (alg : Alg) (r : Nat) : Nat :=
  if r ≤ alg.blockSize - alg.lengthBytes - 1 then alg.blockSize else 2 * alg.blockSize

end Sys2Proof.Machine
end

