-- ==== Sys2Proof/Machine/Operands.lean ====
section
/-! DEFINITION. The operand forms (30_encoding.md R85): the algorithm of a defined selector and the
message byte, and the byte forms of `LEN`, of the digest and of its characters. -/

namespace Sys2Proof.Machine

/-- The algorithm of a 4-bit selector: `ALG[10:8]`, its low three bits, is the register's value (R85),
for the eight defined selectors (R84). -/
def selectorAlg (selector : BitVec 4) : Alg := Alg.ofCode (selector.extractLsb' 0 3)

/-- `LengthField(alg, LEN)` (43_finalize_padding.md R173, 20_memory.md R55). -/
def lengthField (alg : Alg) (len : BitVec 128) : List Byte :=
  match alg.unit with
  | .md5Compress => le64enc (len.extractLsb' 0 64)
  | .sha1Compress => be64enc (len.extractLsb' 0 64)
  | .sha256Compress => be64enc (len.extractLsb' 0 64)
  | .sha512Compress => be64enc (len.extractLsb' 64 64) ++ be64enc (len.extractLsb' 0 64)

/-- One state word as the bytes of the digest (48_digest_format.md R320, R321). -/
def digestWord (alg : Alg) (x : Word64) : List Byte :=
  match alg.unit with
  | .md5Compress => le32enc (lowWord x)
  | .sha1Compress => be32enc (lowWord x)
  | .sha256Compress => be32enc (lowWord x)
  | .sha512Compress => be64enc x

/-- `Serialise(alg, H)`: the words `H[0..n−1]` encoded in order, the first `D` bytes kept (R320). -/
def serialise (alg : Alg) (h : Vector Word64 8) : List Byte :=
  ((h.toList.take alg.stateWords).flatMap (digestWord alg)).take alg.digestBytes

/-- The 64-byte register that holds a digest in its first bytes and 0x00 above (R320). -/
def digestRegister (bytes : List Byte) : Vector Byte 64 := Vector.ofFn fun i => bytes.getD i.val 0x00

/-- `DIGEST[0..n−1]`. -/
def digestPrefix (digest : Vector Byte 64) (n : Nat) : List Byte := digest.toList.take n

/-- `HexChar(v)` (R323). -/
def hexChar (v : BitVec 4) : Byte :=
  if v.toNat ≤ 9 then 0x30 + v.setWidth 8 else 0x61 + (v.setWidth 8 - 10)

/-- The two characters of one byte, high nibble first (R324). -/
def hexByte (b : Byte) : List Byte := [hexChar (b.extractLsb' 4 4), hexChar (b.extractLsb' 0 4)]

/-- `ToHex(bytes)` (R324). -/
def toHexString (bytes : List Byte) : List Byte := bytes.flatMap hexByte

end Sys2Proof.Machine
end

