-- ==== Sys2Proof/Machine/Finalize.lean ====
section
/-! DEFINITION. FINALIZE (43_finalize_padding.md). The padding steps are in the order of R170; `r` is
`BUFLEN` until the length field is written, and `P` after it (R179). -/

namespace Sys2Proof.Machine

/-- `BUF[r] <- 0x80` (R171). -/
def pad80 (s : State) : Option State := do
  let buf ← memWrite s.buflen.toNat [0x80] s.buf
  pure { s with buf := buf }

/-- `BUF[i] <- 0x00` for `r + 1 ≤ i ≤ P − L − 1` (R172). -/
def padZero (s : State) : Option State := do
  let r := s.buflen.toNat
  let P := paddedLength s.alg r
  let buf ← memWrite (r + 1) (List.replicate (P - s.alg.lengthBytes - (r + 1)) 0x00) s.buf
  pure { s with buf := buf }

/-- `BUF[P−L .. P−1] <- LengthField(ALG, LEN)`, then `BUFLEN <- P` (R173, R170). -/
def padLength (s : State) : Option State := do
  let P := paddedLength s.alg s.buflen.toNat
  let buf ← memWrite (P - s.alg.lengthBytes) (lengthField s.alg s.len) s.buf
  pure { s with buf := buf, buflen := BitVec.ofNat 9 P }

/-- Block 1 is compressed only when `P = 2·B` (R175). -/
def hasSecondBlock (s : State) : Bool := decide (s.buflen.toNat = 2 * s.alg.blockSize)

/-- The one or two final compressions, block 0 first (R175). -/
def compressPadded (s : State) : Option State := do
  let s1 ← compressBlock 0 s
  if hasSecondBlock s1 then compressBlock 1 s1 else pure s1

/-- `DIGEST <- Serialise(ALG, H)` padded with 0x00 (R170, 48_digest_format.md R320). -/
def storeDigest (s : State) : State := { s with digest := digestRegister (serialise s.alg s.h) }

/-- The wipe of all 256 bytes, `BUFLEN <- 0`, `PHASE <- DONE` (R176). -/
def wipeBuffer (s : State) : State := { s with buf := Memory.zeroed, buflen := 0, phase := .done }

/-- `respond (OK, len = D, data = DIGEST[0..D−1])` (R170). -/
def respondDigest (s : State) : State := respond .ok (digestPrefix s.digest s.alg.digestBytes) s

/-- The padding and the compressions of FINALIZE. -/
def padAndCompress (s : State) : Option State := do
  let s1 ← pad80 s
  let s2 ← padZero s1
  let s3 ← padLength s2
  compressPadded s3

/-- FINALIZE (R170, R180). -/
def execFinalize (s : State) : Host.Outcome State Fault Refusal :=
  if s.phase ≠ .active then .next (raise .invalidState s)
  else orBufferFault ((padAndCompress s).map fun t => respondDigest (wipeBuffer (storeDigest t)))

end Sys2Proof.Machine
end

