-- ==== Sys2Proof/Machine/Init.lean ====
section
/-! DEFINITION. INIT (41_init.md). -/

namespace Sys2Proof.Machine

/-- The fresh context of INIT with a defined selector (R130): legal in every phase, it writes every
register of the context, clears `ERR`, and responds OK with no payload. -/
def beginContext (alg : Alg) (s : State) : State :=
  respond .ok []
    { s with
      alg := alg
      h := ivRegs alg
      len := 0
      buf := Memory.zeroed
      buflen := 0
      digest := Vector.replicate 64 0x00
      err := .ok
      phase := .active }

/-- INIT.MD5 (R130, R131). -/
def execInitMd5 (s : State) : Host.Outcome State Fault Refusal := .next (beginContext .md5 s)

/-- INIT.SHA1 (R130, R132). -/
def execInitSha1 (s : State) : Host.Outcome State Fault Refusal := .next (beginContext .sha1 s)

/-- INIT.SHA224 (R130, R133). -/
def execInitSha224 (s : State) : Host.Outcome State Fault Refusal := .next (beginContext .sha224 s)

/-- INIT.SHA256 (R130, R134). -/
def execInitSha256 (s : State) : Host.Outcome State Fault Refusal := .next (beginContext .sha256 s)

/-- INIT.SHA384 (R130, R135). -/
def execInitSha384 (s : State) : Host.Outcome State Fault Refusal := .next (beginContext .sha384 s)

/-- INIT.SHA512 (R130, R136). -/
def execInitSha512 (s : State) : Host.Outcome State Fault Refusal := .next (beginContext .sha512 s)

/-- INIT.SHA512_224 (R130, R137). -/
def execInitSha512_224 (s : State) : Host.Outcome State Fault Refusal := .next (beginContext .sha512_224 s)

/-- INIT.SHA512_256 (R130, R138). -/
def execInitSha512_256 (s : State) : Host.Outcome State Fault Refusal := .next (beginContext .sha512_256 s)

/-- INIT.UNDEF (R139): raises InvalidAlgorithmSelector in every phase. The decoder gives it only
selectors 8 to 15 (WellFormed; log entry 11). -/
def execInitUndef (_selector : BitVec 4) (s : State) : Host.Outcome State Fault Refusal :=
  .next (raise .invalidAlgorithmSelector s)

end Sys2Proof.Machine
end

