-- ==== Sys2Proof/Machine/ToHex.lean ====
section
/-! DEFINITION. TOHEX (48_digest_format.md). -/

namespace Sys2Proof.Machine

/-- TOHEX (R326): in phase DONE it responds with the characters of `DIGEST[0..D−1]` and writes no
register of the context. -/
def execToHex (s : State) : Host.Outcome State Fault Refusal :=
  if s.phase ≠ .done then .next (raise .invalidState s)
  else .next (respond .ok (toHexString (digestPrefix s.digest s.alg.digestBytes)) s)

end Sys2Proof.Machine
end

