-- ==== Sys2Proof/Machine/Update.lean ====
section
/-! DEFINITION. UPDATE (42_update.md). -/

namespace Sys2Proof.Machine

/-- `BUF[BUFLEN] <- data`, `BUFLEN <- BUFLEN + 1`, `LEN <- LEN + 8` (R150; micro-state APPEND of R154). -/
def appendByte (data : Byte) (s : State) : Option State := do
  let buf ← memWrite s.buflen.toNat [data] s.buf
  pure { s with buf := buf, buflen := s.buflen + 1, len := s.len + 8 }

/-- The block boundary (R152): the test `BUFLEN = B` after the increment. -/
def blockIsFull (s : State) : Bool := decide (s.buflen.toNat = s.alg.blockSize)

/-- `BUFLEN <- 0`; the bytes stay in `BUF` (R152; micro-state CLEAR of R154). -/
def clearBuffer (s : State) : State := { s with buflen := 0 }

/-- The compression of a full block, and nothing when the block is not full (R150, R152). -/
def closeBlock (s : State) : Option State :=
  if blockIsFull s then (compressBlock 0 s).map clearBuffer else some s

/-- UPDATE (R150): the phase check, then the length check (R355), both before any write; then append,
and compress a full block in the same command. -/
def execUpdate (data : Byte) (s : State) : Host.Outcome State Fault Refusal :=
  if s.phase ≠ .active then .next (raise .invalidState s)
  else if lengthWouldOverflow s.alg s.len then .next (raise .messageTooLarge s)
  else orBufferFault (((appendByte data s).bind closeBlock).map (respond .ok []))

end Sys2Proof.Machine
end

