-- ==== Sys2Proof/Machine/Command.lean ====
section
/-! DEFINITION. One command word and one reset event. -/

namespace Sys2Proof.Machine

/-- One command word (30_encoding.md R80, R86): the command it decodes to, and IllegalCommand for a
word that is no command, decided before the phase is looked at (60_exceptions.md R344, R355). Total
on all 65536 words. -/
def runCommand (w : Word16) (s : State) : Host.Outcome State Fault Refusal :=
  match decode w with
  | .ok i => exec i s
  | .error _ => .next (raise .illegalCommand s)

/-- The reset event (70_reset_and_hazards.md R380, 10_state.md R37): `PHASE = UNINIT`, `ERR = 0`, the
command port idle with no response pending; every other register takes a FREE VALUE that may depend on
everything the core held, since "unspecified" includes "unchanged" and a model must assume neither
erasure nor preservation (R381; log entry 3). The host's later events stay. -/
def resetEvent (s : State) : State where
  phase := .uninit
  err := .ok
  alg := Alg.ofCode (Config.resetAlg s)
  h := Vector.ofFn fun i => Config.resetH s i.val
  len := Config.resetLen s
  buf := Memory.writeBytes Memory.zeroed 0 ((List.range 256).map (Config.resetBuf s))
  buflen := Config.resetBuflen s
  digest := Vector.ofFn fun i => Config.resetDigest s i.val
  input := s.input
  rsp := none
  resets := s.resets + 1

/-- One event of the host. -/
def runEvent (e : HostEvent) (s : State) : Host.Outcome State Fault Refusal :=
  match e with
  | .cmd w => runCommand w s
  | .rst => .next (resetEvent s)

/-- Where the next command word is taken from: the head of the host's event stream. -/
def prependCommand (w : Word16) (s : State) : State := { s with input := .cmd w :: s.input }

end Sys2Proof.Machine
end

