-- ==== Sys2Proof/Machine/Step.lean ====
section
/-! DEFINITION. The step: the core takes the host's next event and runs it to completion
(30_encoding.md R80). -/

namespace Sys2Proof.Machine

/-- One step. With no event to take the core is idle with all state retained (60_exceptions.md R374);
otherwise it takes the first event (log entry 4). -/
def step (s : State) : Host.Outcome State Fault Refusal :=
  match s.input with
  | [] => .next s
  | e :: rest => runEvent e { s with input := rest }

/-- `s` with the command word of the number `w` as the host's next event, so that the very next step
runs it. A command is exactly 16 bits (R81), so only the low 16 bits of the number are a word. -/
def State.withFetchWord (s : State) (_nbits w : Nat) : State := prependCommand (BitVec.ofNat 16 w) s

end Sys2Proof.Machine
end

