-- ==== Sys2Proof/Machine/Api.lean ====
section
/-! DEFINITION. The host's side of the command interface: assembler lines and pseudo-commands
(30_encoding.md R94, R95), a sequence of command words with its responses (20_memory.md R63), and
DOC's API as command sequences (R97, 42_update.md R156). -/

namespace Sys2Proof.Machine

/-- One line of the assembler syntax (R94) or a pseudo-command (R95). A message byte is a number 0 to
255 or the code of a quoted ASCII character. -/
inductive AsmLine where
  | initAlg (alg : Alg)
  | initNumber (selector : BitVec 4)
  | update (byte : Byte)
  | updateChar (c : Char)
  | finalize
  | toHex
  | word (w : Word16)
  | updates (text : List Char)
  | updateb (bytes : List Byte)
  | updaten (count : Nat) (byte : Byte)
  | hash (alg : Alg) (text : List Char)
deriving DecidableEq, Repr

/-- The ASCII code of a character (R94; log entry 14 for a character outside ASCII). -/
def asciiByte (c : Char) : Byte := BitVec.ofNat 8 c.toNat

/-- One UPDATE word per byte, in order (R95, R97). -/
def updateWords (bytes : List Byte) : List Word16 := bytes.map fun b => encode (.update b)

/-- The command words of a line (R94, R95). -/
def assembleLine : AsmLine → List Word16
  | .initAlg alg => [encode (initCommandOf alg)]
  | .initNumber selector => [encode (initRow selector)]
  | .update byte => [encode (.update byte)]
  | .updateChar c => [encode (.update (asciiByte c))]
  | .finalize => [encode .finalize]
  | .toHex => [encode .toHex]
  | .word w => [w]
  | .updates text => updateWords (text.map asciiByte)
  | .updateb bytes => updateWords bytes
  | .updaten count byte => updateWords (List.replicate count byte)
  | .hash alg text =>
    [encode (initCommandOf alg)] ++ updateWords (text.map asciiByte) ++ [encode .finalize, encode .toHex]

/-- The command words of a listing. -/
def assemble (lines : List AsmLine) : List Word16 := lines.flatMap assembleLine

/-- The responses of a state's port, none or one. -/
def responsesOf (s : State) : List Response := s.rsp.toList

/-- A sequence of command words, first one first: the final state and the response of every command in
order, or none when the core stops (R80, R63). -/
def runCommands : List Word16 → State → Option (State × List Response)
  | [], s => some (s, [])
  | w :: ws, s =>
    match runCommand w s with
    | .next s1 =>
      match runCommands ws s1 with
      | some (s2, rs) => some (s2, responsesOf s1 ++ rs)
      | none => none
    | .fault _ => none
    | .refused _ => none

/-- The status of the first failing command, or OK (R97). -/
def firstFailure : List Response → Status
  | [] => .ok
  | r :: rs => if r.status = .ok then firstFailure rs else r.status

/-- `Update(context, bytes)`: one UPDATE per byte, none for an empty sequence; its result is the status
of the first failing command or OK (R97, R156). -/
def apiUpdate (bytes : List Byte) (s : State) : Option (State × Status) :=
  match runCommands (updateWords bytes) s with
  | some (t, rs) => some (t, firstFailure rs)
  | none => none

end Sys2Proof.Machine
end

