-- ==== Sys2Proof/Machine/Fsm.lean ====
section
/-! DEFINITION. The two control FSMs inside a command, micro-state by micro-state: the hash-buffer FSM
of UPDATE (42_update.md R154) and the padding FSM of FINALIZE (43_finalize_padding.md R179). The
machine takes each command as one atomic transition, as both rules allow; these definitions are the
unfolded form, for claims that the two agree. -/

namespace Sys2Proof.Machine

/-- What one micro-step answers: the next micro-state, the end of the command with its response, or an
access to an address that does not exist. -/
inductive MicroNext (μ : Type) where
  | goto (m : μ) (s : State)
  | finish (s : State)
  | fault (r : Fault)

/-- The micro-states of UPDATE (R154). -/
inductive UpdateMicro where
  | idle
  | append
  | compress
  | clear
deriving DecidableEq, Repr

/-- The micro-states of FINALIZE (R179), after the phase check. -/
inductive PadMicro where
  | pad80
  | padZero
  | padLen
  | compress0
  | compress1
  | serialise
  | wipe
deriving DecidableEq, Repr

/-- Go on to a micro-state after accesses that may be out of range. -/
def microGoto {μ : Type} (m : State → μ) : Option State → MicroNext μ
  | some s => .goto (m s) s
  | none => .fault .bufferRange

/-- One micro-step of an UPDATE with message byte `data` (R154). -/
def updateMicroStep (data : Byte) (m : UpdateMicro) (s : State) : MicroNext UpdateMicro :=
  match m with
  | .idle =>
    if s.phase ≠ .active then .finish (raise .invalidState s)
    else if lengthWouldOverflow s.alg s.len then .finish (raise .messageTooLarge s)
    else .goto .append s
  | .append =>
    match appendByte data s with
    | some t => if blockIsFull t then .goto .compress t else .finish (respond .ok [] t)
    | none => .fault .bufferRange
  | .compress => microGoto (fun _ => UpdateMicro.clear) (compressBlock 0 s)
  | .clear => .finish (respond .ok [] (clearBuffer s))

/-- One micro-step of the padding engine (R179). -/
def padMicroStep (m : PadMicro) (s : State) : MicroNext PadMicro :=
  match m with
  | .pad80 => microGoto (fun _ => PadMicro.padZero) (Sys2Proof.Machine.pad80 s)
  | .padZero => microGoto (fun _ => PadMicro.padLen) (Sys2Proof.Machine.padZero s)
  | .padLen => microGoto (fun _ => PadMicro.compress0) (padLength s)
  | .compress0 =>
    microGoto (fun t => if hasSecondBlock t then PadMicro.compress1 else PadMicro.serialise) (compressBlock 0 s)
  | .compress1 => microGoto (fun _ => PadMicro.serialise) (compressBlock 1 s)
  | .serialise => .goto .wipe (storeDigest s)
  | .wipe => .finish (respondDigest (wipeBuffer s))

/-- At most `fuel` micro-steps from a micro-state; none when the command has not finished by then. -/
def runMicro {μ : Type} (next : μ → State → MicroNext μ) :
    Nat → μ → State → Option (Host.Outcome State Fault Refusal)
  | 0, _, _ => none
  | fuel + 1, m, s =>
    match next m s with
    | .goto m' s' => runMicro next fuel m' s'
    | .finish s' => some (.next s')
    | .fault r => some (.fault r)

end Sys2Proof.Machine
end

