-- ==== Sys2Proof/Machine/Ports.lean ====
section
/-! DEFINITION. The values on the output ports (30_encoding.md R93, informative), as views of the
state: no rule of the model depends on them. The clock and the valid/ready handshake are not modelled
(log entry 10). -/

namespace Sys2Proof.Machine

/-- The payload as the 1024-bit vector `rsp_data`: byte `i` in bits `[8i+7:8i]`, and all bits from
`8·len` up zero (R90; log entry 6). -/
def payloadVector (data : List Byte) : BitVec 1024 :=
  BitVec.ofNat 1024 (data.foldr (fun b n => b.toNat + 256 * n) 0)

/-- The output ports that carry values. -/
structure Ports where
  rspValid : Bool
  rspStatus : BitVec 4
  rspLen : BitVec 8
  rspData : BitVec 1024
  phase : BitVec 2
  err : BitVec 4
deriving DecidableEq, Repr

/-- The ports at a command boundary: `phase = PHASE` and `err = ERR`, and the response when there is
one. With no response the spec gives the response ports no value: they are free (log entry 5). -/
def portsOf (s : State) : Ports :=
  match s.rsp with
  | some r =>
    { rspValid := true, rspStatus := r.status.code, rspLen := r.len, rspData := payloadVector r.data,
      phase := s.phase.code, err := s.err.code }
  | none =>
    { rspValid := false, rspStatus := Config.idleRspStatus s, rspLen := Config.idleRspLen s,
      rspData := Config.idleRspData s,
      phase := s.phase.code, err := s.err.code }

end Sys2Proof.Machine
end

