-- ==== Sys2Proof/Machine/Rolling.lean ====
section
/-! DEFINITION. The other organisations the spec allows for the SHA compressions and the published
form of MD5, for claims that they compute the same: a schedule that keeps only the most recent sixteen
words, its expansion interleaved with the rounds (10_state.md R31, 45_sha1_compress.md R230,
46_sha256_compress.md R260, 47_sha512_compress.md R290), and RFC 1321's fixed registers whose roles
rotate (44_md5_compress.md R211). The machine does not use them. -/

namespace Sys2Proof.Machine

/-- The window after one more word: the oldest word leaves. -/
def windowShift {w : Nat} (W : List (BitVec w)) (x : BitVec w) : List (BitVec w) := W.drop 1 ++ [x]

/-- The working registers and the sixteen-word window, after a round. -/
structure Sha1Rolling where
  regs : Sha1Regs
  window : List Word32
deriving DecidableEq, Repr

/-- Round `t` on the oldest word of the window, which then makes room for word `t + 16`. -/
def sha1RollingRound (st : Sha1Rolling) (t : Nat) : Sha1Rolling :=
  { regs := sha1RoundWith t (st.window.getD 0 0) st.regs
    window := windowShift st.window
      (rotl (st.window.getD 13 0 ^^^ st.window.getD 8 0 ^^^ st.window.getD 2 0 ^^^ st.window.getD 0 0) 1) }

/-- SHA1Compress with a sixteen-word window. -/
def sha1CompressRolling (Hin : Sha1Regs) (M : List Byte) : Sha1Regs :=
  sha1Add Hin
    ((List.range 80).foldl sha1RollingRound { regs := Hin, window := (List.range 16).map (be32word M) }).regs

/-- The working registers and the sixteen-word window of the SHA-2 units. -/
structure Sha2Rolling (w : Nat) where
  regs : Sha2Regs w
  window : List (BitVec w)
deriving DecidableEq, Repr

/-- SHA-256 round `t` on the oldest word of the window. -/
def sha256RollingRound (st : Sha2Rolling 32) (t : Nat) : Sha2Rolling 32 :=
  { regs := sha256RoundWith t (st.window.getD 0 0) st.regs
    window := windowShift st.window
      (sha256SmallSigma1 (st.window.getD 14 0) + st.window.getD 9 0
        + sha256SmallSigma0 (st.window.getD 1 0) + st.window.getD 0 0) }

/-- SHA256Compress with a sixteen-word window. -/
def sha256CompressRolling (Hin : Sha2Regs 32) (M : List Byte) : Sha2Regs 32 :=
  sha2Add Hin
    ((List.range 64).foldl sha256RollingRound { regs := Hin, window := (List.range 16).map (be32word M) }).regs

/-- SHA-512 round `t` on the oldest word of the window. -/
def sha512RollingRound (st : Sha2Rolling 64) (t : Nat) : Sha2Rolling 64 :=
  { regs := sha512RoundWith t (st.window.getD 0 0) st.regs
    window := windowShift st.window
      (sha512SmallSigma1 (st.window.getD 14 0) + st.window.getD 9 0
        + sha512SmallSigma0 (st.window.getD 1 0) + st.window.getD 0 0) }

/-- SHA512Compress with a sixteen-word window. -/
def sha512CompressRolling (Hin : Sha2Regs 64) (M : List Byte) : Sha2Regs 64 :=
  sha2Add Hin
    ((List.range 80).foldl sha512RollingRound { regs := Hin, window := (List.range 16).map (be64word M) }).regs

/-- The value of the round's function at step `i`, on the operands of its three roles (R210). -/
def md5Value (i : Nat) (x y z : Word32) : Word32 :=
  if i ≤ 15 then md5F x y z else if i ≤ 31 then md5FunG x y z
  else if i ≤ 47 then md5H x y z else md5I x y z

/-- `a = b + ((a + f(b,c,d) + X[k] + T[i]) <<< s)`, RFC 1321's step on registers in the roles
`a, b, c, d` (R211). -/
def md5RfcValue (X : List Word32) (i : Nat) (a b c d : Word32) : Word32 :=
  b + rotl (a + md5Value i b c d + X.getD (md5G i) 0 + md5T.getD i 0) (md5S i)

/-- Step `i` on the fixed registers `A, B, C, D`: the roles are `[abcd]`, `[dabc]`, `[cdab]`, `[bcda]`
in turn, and only the register in the first role changes (R211). -/
def md5RfcStep (X : List Word32) (R : Md5Regs) (i : Nat) : Md5Regs :=
  match i % 4 with
  | 0 => { R with a := md5RfcValue X i R.a R.b R.c R.d }
  | 1 => { R with d := md5RfcValue X i R.d R.a R.b R.c }
  | 2 => { R with c := md5RfcValue X i R.c R.d R.a R.b }
  | _ => { R with b := md5RfcValue X i R.b R.c R.d R.a }

/-- The 64 steps in RFC 1321's form. -/
def md5RfcSteps (Hin : Md5Regs) (M : List Byte) (k : Nat) : Md5Regs :=
  (List.range k).foldl (md5RfcStep (md5Load M)) Hin

end Sys2Proof.Machine
end

