-- ==== Sys2Proof/Machine/OneShot.lean ====
section
/-! DEFINITION. The digest of a whole message at once, from the closed form of the padded data
(43_finalize_padding.md R177), for claims about what a stream of commands computes. The machine does
not use it. -/

namespace Sys2Proof.Machine

/-- The count of zero bytes `z = (B − L − 1 − r) mod B` for a message of `N` bytes, `r = N mod B` (R177). -/
def zeroCount (alg : Alg) (N : Nat) : Nat :=
  (2 * alg.blockSize - alg.lengthBytes - 1 - N % alg.blockSize) % alg.blockSize

/-- The padded data of a message: `m ‖ 0x80 ‖ 0x00^z ‖ LengthField(ALG, 8·N)` (R177). -/
def paddedMessage (alg : Alg) (m : List Byte) : List Byte :=
  m ++ [0x80] ++ List.replicate (zeroCount alg m.length) 0x00 ++
    lengthField alg (BitVec.ofNat 128 (8 * m.length))

/-- Block `k` of a byte sequence, `B` bytes. -/
def blockOf (alg : Alg) (bytes : List Byte) (k : Nat) : List Byte :=
  (bytes.drop (k * alg.blockSize)).take alg.blockSize

/-- The state words after the first `k` blocks of a byte sequence. -/
def hashBlocks (alg : Alg) (bytes : List Byte) (h : Vector Word64 8) (k : Nat) : Vector Word64 8 :=
  (List.range k).foldl (fun g j => compress alg g (blockOf alg bytes j)) h

/-- How many blocks the padded data of a message has. -/
def paddedBlocks (alg : Alg) (m : List Byte) : Nat := (paddedMessage alg m).length / alg.blockSize

/-- The final state words of a message. -/
def hashState (alg : Alg) (m : List Byte) : Vector Word64 8 :=
  hashBlocks alg (paddedMessage alg m) (ivRegs alg) (paddedBlocks alg m)

/-- The digest of a message. -/
def hashDigest (alg : Alg) (m : List Byte) : List Byte := serialise alg (hashState alg m)

end Sys2Proof.Machine
end

