-- ==== Sys2Proof/Safety.lean ====
section
/-! DEFINITION. What holds at every command boundary, by phase (10_state.md R29 with R21 to R28), and
what a context that has consumed a message looks like. -/

namespace Sys2Proof.Machine

/-- The part of `H` an algorithm does not use is zero: whole words from `n` up, and bits 63:32 for
32-bit words (R22). -/
abbrev unusedWordsZero (alg : Alg) (h : Vector Word64 8) : Prop :=
  (∀ i : Fin 8, alg.stateWords ≤ i.val → h[i] = 0) ∧
  (alg.wordBits = 32 → ∀ i : Fin 8, h[i].toNat < 2 ^ 32)

/-- A response is well shaped: `len` counts the payload, at most 128 bytes, and an error has none
(30_encoding.md R90). -/
abbrev responseShape (r : Response) : Prop :=
  r.len.toNat = r.data.length ∧ r.data.length ≤ 128 ∧ (r.status ≠ .ok → r.data = [])

/-- The response port holds nothing or a well-shaped response. -/
abbrev portShape (rsp : Option Response) : Prop := ∀ r ∈ rsp, responseShape r

/-- The ACTIVE line of R29, less what it says of the message itself (`contextHolds`). -/
abbrev activeShape (s : State) : Prop :=
  s.buflen.toNat < s.alg.blockSize ∧
  s.buflen.toNat = s.len.toNat / 8 % s.alg.blockSize ∧
  s.len.toNat % 8 = 0 ∧
  s.len.toNat ≤ 2 ^ s.alg.counterBits - 8 ∧
  s.digest = Vector.replicate 64 0x00 ∧
  unusedWordsZero s.alg s.h

/-- The DONE line of R29. -/
abbrev doneShape (s : State) : Prop :=
  s.buflen = 0 ∧
  s.buf = Memory.zeroed ∧
  s.digest = digestRegister (serialise s.alg s.h) ∧
  s.len.toNat % 8 = 0 ∧
  s.len.toNat ≤ 2 ^ s.alg.counterBits - 8 ∧
  unusedWordsZero s.alg s.h

/-- The invariant of a core at every command boundary (R29): the buffer memory in its canonical form,
`ERR ≠ 0` exactly in FAILED (R25), and the line of the phase. In UNINIT and FAILED the context is not
constrained. -/
abbrev State.Inv (s : State) : Prop :=
  s.buf.wf = true ∧
  (s.err ≠ .ok ↔ s.phase = .failed) ∧
  portShape s.rsp ∧
  (s.phase = .active → activeShape s) ∧
  (s.phase = .done → doneShape s)

/-- An ACTIVE context of `alg` has consumed exactly the message `m` (R29): `LEN` is its bit count, `H`
is the IV folded through its whole blocks, `BUF[0..BUFLEN−1]` are the bytes after them in order. -/
def contextHolds (alg : Alg) (m : List Byte) (s : State) : Prop :=
  s.phase = .active ∧ s.err = .ok ∧ s.alg = alg ∧ s.buf.wf = true ∧
  s.len = BitVec.ofNat 128 (8 * m.length) ∧ 8 * m.length ≤ 2 ^ alg.counterBits - 8 ∧
  s.buflen.toNat = m.length % alg.blockSize ∧
  s.h = hashBlocks alg m (ivRegs alg) (m.length / alg.blockSize) ∧
  s.buf.readBytes 0 (m.length % alg.blockSize) = m.drop (m.length / alg.blockSize * alg.blockSize) ∧
  s.digest = Vector.replicate 64 0x00

/-- Two states that agree on everything a command can observe while no context exists or the context
has failed: all but the context registers (R36, R381). -/
def sameOutsideContext (s t : State) : Prop :=
  s.phase = t.phase ∧ s.err = t.err ∧ s.input = t.input ∧ s.rsp = t.rsp ∧ s.resets = t.resets

/-- Two states that agree on everything but the stale bytes `BUF[BUFLEN..255]` (R36 (a)). -/
def sameButStaleBytes (s t : State) : Prop :=
  sameOutsideContext s t ∧ s.alg = t.alg ∧ s.h = t.h ∧ s.len = t.len ∧ s.buflen = t.buflen ∧
  s.digest = t.digest ∧ ∀ a, a < s.buflen.toNat → s.buf.read a = t.buf.read a

end Sys2Proof.Machine
end

