-- ==== Sys2Proof/Certificates/Slice0/Obligations.lean ====
section
/-! DEFINITION. The statements for the provers. Each says in its docstring which rule of spec/ it
formalises, or which log entry of the model a clause rests on. -/

open Sys2Proof Sys2Proof.Machine

/-! ## Reset -/

/-- 10_state.md R37, 70_reset_and_hazards.md R380: a reset event, whatever the state and phase it
arrives in, leaves `PHASE = UNINIT`, `ERR = 0` and no response pending, and so does `State.reset`.
Nothing is said of the unspecified registers. That the host's later events stay is the model's
(log entry 4). -/
def Obligations.ResetGivesUninitAndNoError : Prop :=
  (State.reset.phase = .uninit ∧ State.reset.err = .ok ∧ State.reset.rsp = none ∧ State.reset.input = []) ∧
  ∀ (s : State) (rest : List HostEvent), s.input = .rst :: rest →
    ∃ t, step s = .next t ∧ t.phase = .uninit ∧ t.err = .ok ∧ t.rsp = none ∧ t.input = rest

/-- 70_reset_and_hazards.md R381, 10_state.md R36 (c): no command can observe a context register while
no context exists or the context has failed. Two states that differ only in those registers take the
same steps, with the same responses, and stay alike, through a reset too, until a successful INIT makes
them equal. -/
def Obligations.ContextUnobservableBeforeInit : Prop :=
  ∀ s t : State, sameOutsideContext s t → (s.phase = .uninit ∨ s.phase = .failed) →
    ∃ s' t', step s = .next s' ∧ step t = .next t' ∧
      (s' = t' ∨ (sameOutsideContext s' t' ∧ (s'.phase = .uninit ∨ s'.phase = .failed)))

/-! ## INIT -/

/-- 41_init.md R130: INIT with a defined selector, in every state and phase, writes the whole context:
`ALG`, `H` (the IV zero-extended, zero from `n` up), `LEN`, all of `BUF`, `BUFLEN`, all of `DIGEST`,
`ERR` and `PHASE`, and responds OK with no payload; its word is 0x1s00. With a selector of 8 or more it
raises InvalidAlgorithmSelector instead. -/
def Obligations.InitWritesWholeContext : Prop :=
  (∀ (i : Instr) (alg : Alg),
    (i, alg) ∈ [(Instr.initMd5, Alg.md5), (.initSha1, .sha1), (.initSha224, .sha224), (.initSha256, .sha256),
      (.initSha384, .sha384), (.initSha512, .sha512), (.initSha512_224, .sha512_224), (.initSha512_256, .sha512_256)] →
    decode (0x1000 + BitVec.ofNat 16 (256 * alg.code.toNat)) = .ok i ∧
    ∀ s : State, ∃ t, exec i s = .next t ∧
      t.alg = alg ∧
      (∀ k : Fin 8, t.h[k] = if k.val < alg.stateWords then (ivWords alg).getD k.val 0 else 0) ∧
      t.len = 0 ∧ (∀ a, t.buf.read a = 0x00) ∧ t.buf.wf = true ∧ t.buflen = 0 ∧
      (∀ k : Fin 64, t.digest[k] = 0x00) ∧ t.err = .ok ∧ t.phase = .active ∧
      t.rsp = some { status := .ok, len := 0, data := [] }) ∧
  ∀ (selector : BitVec 4) (s : State), 8 ≤ selector.toNat →
    decode (0x1000 + BitVec.ofNat 16 (256 * selector.toNat)) = .ok (.initUndef selector) ∧
    exec (.initUndef selector) s = .next (raise .invalidAlgorithmSelector s)

/-- 41_init.md R131 to R138: the words each INIT leaves in `H[0..7]`, written out (R131 also as
little-endian bytes). -/
def Obligations.InitLoadsPublishedIv : Prop :=
  ∀ s : State,
    (∃ t, exec .initMd5 s = .next t ∧
      t.h = #v[0x67452301, 0xefcdab89, 0x98badcfe, 0x10325476, 0, 0, 0, 0] ∧
      [0x67452301, 0xefcdab89, 0x98badcfe, 0x10325476].map le32enc =
        [[0x01, 0x23, 0x45, 0x67], [0x89, 0xab, 0xcd, 0xef], [0xfe, 0xdc, 0xba, 0x98], [0x76, 0x54, 0x32, 0x10]]) ∧
    (∃ t, exec .initSha1 s = .next t ∧
      t.h = #v[0x67452301, 0xefcdab89, 0x98badcfe, 0x10325476, 0xc3d2e1f0, 0, 0, 0]) ∧
    (∃ t, exec .initSha224 s = .next t ∧
      t.h = #v[0xc1059ed8, 0x367cd507, 0x3070dd17, 0xf70e5939, 0xffc00b31, 0x68581511, 0x64f98fa7, 0xbefa4fa4]) ∧
    (∃ t, exec .initSha256 s = .next t ∧
      t.h = #v[0x6a09e667, 0xbb67ae85, 0x3c6ef372, 0xa54ff53a, 0x510e527f, 0x9b05688c, 0x1f83d9ab, 0x5be0cd19]) ∧
    (∃ t, exec .initSha384 s = .next t ∧
      t.h = #v[0xcbbb9d5dc1059ed8, 0x629a292a367cd507, 0x9159015a3070dd17, 0x152fecd8f70e5939,
        0x67332667ffc00b31, 0x8eb44a8768581511, 0xdb0c2e0d64f98fa7, 0x47b5481dbefa4fa4]) ∧
    (∃ t, exec .initSha512 s = .next t ∧
      t.h = #v[0x6a09e667f3bcc908, 0xbb67ae8584caa73b, 0x3c6ef372fe94f82b, 0xa54ff53a5f1d36f1,
        0x510e527fade682d1, 0x9b05688c2b3e6c1f, 0x1f83d9abfb41bd6b, 0x5be0cd19137e2179]) ∧
    (∃ t, exec .initSha512_224 s = .next t ∧
      t.h = #v[0x8c3d37c819544da2, 0x73e1996689dcd4d6, 0x1dfab7ae32ff9c82, 0x679dd514582f9fcf,
        0x0f6d2b697bd44da8, 0x77e36f7304c48942, 0x3f9d85a86a1d36c8, 0x1112e6ad91d692a1]) ∧
    (∃ t, exec .initSha512_256 s = .next t ∧
      t.h = #v[0x22312194fc2bf72c, 0x9f555fa3c84c64c2, 0x2393b86b6f53b151, 0x963877195940eabd,
        0x96283ee2a88effe3, 0xbe5e1e2553863992, 0x2b0199fc2c85b8aa, 0x0eb72ddc81c52ca2])

/-- 41_init.md R141: the IV tables re-derived. SHA-256, SHA-512 and SHA-384 have the first 32 or 64 bits of
the fractional parts of square roots of primes, that is `⌊2^w·√p⌋ mod 2^w`, said by squares; SHA-224 the low
halves of SHA-384's; the SHA-512/t ones are one SHA512Compress of the masked SHA-512 start state over the
padded name; SHA-1's first four words are MD5's, and its fifth continues their byte pattern. -/
def Obligations.InitialValuesRederived : Prop :=
  (∀ i, i < 8 → ∃ q, let p := [2, 3, 5, 7, 11, 13, 17, 19].getD i 0
    (q * 2 ^ 32 + ((ivWords .sha256).getD i 0).toNat) ^ 2 ≤ p * 2 ^ 64 ∧
    p * 2 ^ 64 < (q * 2 ^ 32 + ((ivWords .sha256).getD i 0).toNat + 1) ^ 2 ∧
    ((ivWords .sha256).getD i 0).toNat < 2 ^ 32) ∧
  (∀ i, i < 8 → ∃ q, let p := [2, 3, 5, 7, 11, 13, 17, 19].getD i 0
    (q * 2 ^ 64 + ((ivWords .sha512).getD i 0).toNat) ^ 2 ≤ p * 2 ^ 128 ∧
    p * 2 ^ 128 < (q * 2 ^ 64 + ((ivWords .sha512).getD i 0).toNat + 1) ^ 2) ∧
  (∀ i, i < 8 → ∃ q, let p := [23, 29, 31, 37, 41, 43, 47, 53].getD i 0
    (q * 2 ^ 64 + ((ivWords .sha384).getD i 0).toNat) ^ 2 ≤ p * 2 ^ 128 ∧
    p * 2 ^ 128 < (q * 2 ^ 64 + ((ivWords .sha384).getD i 0).toNat + 1) ^ 2) ∧
  (∀ i, i < 8 → (ivWords .sha224).getD i 0 = zextWord (lowWord ((ivWords .sha384).getD i 0))) ∧
  (∀ (alg : Alg) (name : List Byte),
    (alg, name) ∈ [(Alg.sha512_224, "SHA-512/224".toList.map asciiByte), (.sha512_256, "SHA-512/256".toList.map asciiByte)] →
    ivRegs alg = compress .sha512 ((ivRegs .sha512).map fun x => x ^^^ 0xa5a5a5a5a5a5a5a5)
      (name ++ [0x80] ++ List.replicate 100 0x00 ++ be128enc 88)) ∧
  (ivWords .sha1).take 4 = ivWords .md5 ∧
  le32enc (lowWord ((ivWords .sha1).getD 4 0)) = [0xf0, 0xe1, 0xd2, 0xc3]

/-- 41_init.md R139: every word `0001 1sss 0000 0000` is INIT with an undefined selector, and it raises
InvalidAlgorithmSelector in every state: PHASE becomes FAILED, ERR takes code 2 unless the context had
failed before, the response is (2, 0), and every other register keeps its value. -/
def Obligations.UndefinedSelectorRaises : Prop :=
  ∀ (selector : BitVec 4) (s : State), 8 ≤ selector.toNat →
    decode (0x1000 + BitVec.ofNat 16 (256 * selector.toNat)) = .ok (.initUndef selector) ∧
    exec (.initUndef selector) s = .next { s with
      phase := .failed
      err := if s.phase = .failed then s.err else .invalidAlgorithmSelector
      rsp := some { status := .invalidAlgorithmSelector, len := 0, data := [] } }

/-! ## UPDATE -/

/-- 42_update.md R150, away from a block boundary: the byte goes to `BUF[BUFLEN]`, `BUFLEN` grows by 1
and `LEN` by 8, the response is OK with no payload, and everything else, every other byte of `BUF`
among it, keeps its value. -/
def Obligations.UpdateAppendsOneByte : Prop :=
  ∀ (data : Byte) (s : State), s.phase = .active → s.buf.wf = true →
    s.len.toNat + 8 ≤ 2 ^ s.alg.counterBits - 1 → s.buflen.toNat < 256 →
    s.buflen.toNat + 1 ≠ s.alg.blockSize →
    ∃ t, exec (.update data) s = .next t ∧
      (∀ a, t.buf.read a = if a = s.buflen.toNat then data else s.buf.read a) ∧ t.buf.wf = true ∧
      t.buflen.toNat = s.buflen.toNat + 1 ∧ t.len.toNat = s.len.toNat + 8 ∧
      t.rsp = some { status := .ok, len := 0, data := [] } ∧
      t.h = s.h ∧ t.phase = s.phase ∧ t.err = s.err ∧ t.alg = s.alg ∧ t.digest = s.digest

/-- 42_update.md R150 and R152, at a block boundary: the byte that makes `BUFLEN = B` triggers, in the
same command, one compression of `BUF[0..B−1]` (the `B − 1` bytes there and this one), then
`BUFLEN <- 0`; the bytes stay in `BUF`. -/
def Obligations.UpdateCompressesFullBlock : Prop :=
  ∀ (data : Byte) (s : State), s.phase = .active → s.buf.wf = true →
    s.len.toNat + 8 ≤ 2 ^ s.alg.counterBits - 1 → s.buflen.toNat + 1 = s.alg.blockSize →
    ∃ t, exec (.update data) s = .next t ∧
      t.h = compress s.alg s.h (s.buf.readBytes 0 (s.alg.blockSize - 1) ++ [data]) ∧
      t.buflen = 0 ∧ t.len.toNat = s.len.toNat + 8 ∧
      (∀ a, t.buf.read a = if a = s.buflen.toNat then data else s.buf.read a) ∧ t.buf.wf = true ∧
      t.rsp = some { status := .ok, len := 0, data := [] } ∧
      t.phase = s.phase ∧ t.err = s.err ∧ t.alg = s.alg ∧ t.digest = s.digest

/-- 42_update.md R153: in phase ACTIVE an UPDATE raises MessageTooLarge when `LEN + 8 > 2^c − 1`,
computed without wrap, and appends nothing, and with room in the counter it does not; for a `LEN` that
is a multiple of 8 within the counter that is `LEN = 2^c − 8`, with `c` 64 or 128 by the algorithm. -/
def Obligations.LengthOverflowRaises : Prop :=
  ∀ (data : Byte) (s : State), s.phase = .active →
    (s.len.toNat + 8 > 2 ^ s.alg.counterBits - 1 →
      exec (.update data) s = .next { s with
        phase := .failed
        err := .messageTooLarge
        rsp := some { status := .messageTooLarge, len := 0, data := [] } }) ∧
    (s.len.toNat + 8 ≤ 2 ^ s.alg.counterBits - 1 → s.buflen.toNat < 256 →
      ∃ t, exec (.update data) s = .next t ∧ t.phase = .active ∧ t.err = s.err ∧
        t.len.toNat = s.len.toNat + 8 ∧ t.rsp = some { status := .ok, len := 0, data := [] }) ∧
    (s.len.toNat + 8 ≤ 2 ^ s.alg.counterBits - 1 → ∀ t r, exec (.update data) s = .next t → t.rsp = some r →
      r.status ≠ .messageTooLarge) ∧
    (s.len.toNat % 8 = 0 → s.len.toNat ≤ 2 ^ s.alg.counterBits - 8 →
      (s.len.toNat + 8 > 2 ^ s.alg.counterBits - 1 ↔ s.len.toNat = 2 ^ s.alg.counterBits - 8)) ∧
    (s.alg.counterBits =
      if s.alg ∈ [Alg.md5, .sha1, .sha224, .sha256] then 64 else 128)

/-- 42_update.md R155, R29's ACTIVE line, with 41_init.md R130: INIT starts a context that has consumed
nothing, and an UPDATE the counter still has room for turns a context that has consumed `m` into one
that has consumed `m` and the byte. -/
def Obligations.ContextFollowsMessage : Prop :=
  (∀ (alg : Alg) (s : State), ∃ t, exec (initCommandOf alg) s = .next t ∧ contextHolds alg [] t) ∧
  ∀ (alg : Alg) (m : List Byte) (data : Byte) (s : State), contextHolds alg m s →
    8 * (m.length + 1) ≤ 2 ^ alg.counterBits - 8 →
    ∃ t, exec (.update data) s = .next t ∧ contextHolds alg (m ++ [data]) t

/-- 42_update.md R154: the hash-buffer FSM, run micro-state by micro-state, ends within its four
micro-states with exactly what the atomic UPDATE answers, in every state. -/
def Obligations.UpdateFsmRefinesUpdate : Prop :=
  ∀ (data : Byte) (s : State), runMicro (updateMicroStep data) 4 .idle s = some (exec (.update data) s)

/-- 00_scope.md R11, 20_memory.md R50, R53: no address of 256 or above exists. A state with
`BUFLEN ≥ 256` in phase ACTIVE, which no run reaches (`StepKeepsInvariant`), stops UPDATE and FINALIZE
by the fault bufferRange; that it is a fault is the model's choice (log entry 7). -/
def Obligations.OutOfRangeAccessFaults : Prop :=
  ∀ (data : Byte) (s : State), s.phase = .active → 256 ≤ s.buflen.toNat →
    (s.len.toNat + 8 ≤ 2 ^ s.alg.counterBits - 1 → exec (.update data) s = .fault .bufferRange) ∧
    exec .finalize s = .fault .bufferRange

/-! ## FINALIZE -/

/-- 43_finalize_padding.md R174: one block exactly when the `0x80` byte and the length field fit after
the `r` pending bytes, else two; for `B = 64` one block iff `r ≤ 55`, for `B = 128` iff `r ≤ 111`. -/
def Obligations.PaddingTakesOneOrTwoBlocks : Prop :=
  ∀ (alg : Alg) (r : Nat), r < alg.blockSize →
    (r + 1 + alg.lengthBytes ≤ alg.blockSize → paddedLength alg r = alg.blockSize) ∧
    (alg.blockSize < r + 1 + alg.lengthBytes → paddedLength alg r = 2 * alg.blockSize) ∧
    (r + 1 + alg.lengthBytes ≤ alg.blockSize ↔ r ≤ alg.blockSize - alg.lengthBytes - 1) ∧
    (alg.blockSize = 64 → (paddedLength alg r = 64 ↔ r ≤ 55)) ∧
    (alg.blockSize = 128 → (paddedLength alg r = 128 ↔ r ≤ 111))

/-- 43_finalize_padding.md R171, R172, R173: the three padding steps leave the pending bytes, then
`0x80` at `r`, zeros up to `P − L − 1`, the length field in `P − L .. P − 1` (little-endian for MD5,
big-endian otherwise), and every byte from `P` up as it was. -/
def Obligations.PaddingLayout : Prop :=
  ∀ s : State, s.buf.wf = true → s.buflen.toNat < s.alg.blockSize →
    ∃ s1 s2 s3, pad80 s = some s1 ∧ padZero s1 = some s2 ∧ padLength s2 = some s3 ∧
      s3.buflen.toNat = paddedLength s.alg s.buflen.toNat ∧
      ∀ a, s3.buf.read a =
        if a < s.buflen.toNat then s.buf.read a
        else if a = s.buflen.toNat then 0x80
        else if a < paddedLength s.alg s.buflen.toNat - s.alg.lengthBytes then 0x00
        else if a < paddedLength s.alg s.buflen.toNat then
          let k := a - (paddedLength s.alg s.buflen.toNat - s.alg.lengthBytes)
          if s.alg = .md5 then s.len.extractLsb' (8 * k) 8
          else s.len.extractLsb' (8 * (s.alg.lengthBytes - 1 - k)) 8
        else s.buf.read a

/-- 20_memory.md R55: the length field, byte by byte: little-endian for MD5, big-endian for SHA-1 and
SHA-2, 8 bytes of `LEN[63:0]` or 16 bytes of the whole of `LEN`. -/
def Obligations.LengthFieldByteOrder : Prop :=
  ∀ (alg : Alg) (len : BitVec 128),
    (lengthField alg len).length = alg.lengthBytes ∧
    ∀ k, k < alg.lengthBytes → (lengthField alg len).getD k 0 =
      if alg = .md5 then len.extractLsb' (8 * k) 8 else len.extractLsb' (8 * (alg.lengthBytes - 1 - k)) 8

/-- 43_finalize_padding.md R170, R175, R176: FINALIZE in phase ACTIVE pads the pending bytes, folds the
one or two padded blocks into `H`, block 0 first, stores the serialised digest with zeros above it,
wipes all of `BUF`, empties `BUFLEN`, keeps `LEN`, `ALG` and `ERR`, goes to DONE and responds with the
`D` digest bytes. -/
def Obligations.FinalizePadsCompressesAndWipes : Prop :=
  ∀ s : State, s.phase = .active → s.buf.wf = true → s.buflen.toNat < s.alg.blockSize →
    ∃ t, exec .finalize s = .next t ∧
      t.h = hashBlocks s.alg
        (s.buf.readBytes 0 s.buflen.toNat ++ [0x80] ++
          List.replicate (paddedLength s.alg s.buflen.toNat - s.alg.lengthBytes - 1 - s.buflen.toNat) 0x00 ++
          lengthField s.alg s.len)
        s.h (paddedLength s.alg s.buflen.toNat / s.alg.blockSize) ∧
      (∀ k : Fin 64, t.digest[k] =
        if k.val < s.alg.digestBytes then (serialise s.alg t.h).getD k.val 0 else 0x00) ∧
      (∀ a, t.buf.read a = 0x00) ∧ t.buf.wf = true ∧ t.buflen = 0 ∧ t.phase = .done ∧
      t.rsp = some { status := .ok, len := BitVec.ofNat 8 s.alg.digestBytes, data := serialise s.alg t.h } ∧
      (serialise s.alg t.h).length = s.alg.digestBytes ∧
      t.len = s.len ∧ t.alg = s.alg ∧ t.err = s.err

/-- 43_finalize_padding.md R179: the padding FSM, run micro-state by micro-state from phase ACTIVE, ends
within its seven micro-states with exactly what the atomic FINALIZE answers. -/
def Obligations.PaddingFsmRefinesFinalize : Prop :=
  ∀ s : State, s.phase = .active → runMicro padMicroStep 7 .pad80 s = some (exec .finalize s)

/-- 43_finalize_padding.md R177: the padded data of a message of `N` bytes has the least multiple of
`B` that is at least `N + 1 + L` for its length, begins with the message, then `0x80`, has nothing but
zero bytes up to the length field, and ends with the length field of `8·N`. -/
def Obligations.PaddedDataClosedForm : Prop :=
  ∀ (alg : Alg) (m : List Byte),
    (paddedMessage alg m).length % alg.blockSize = 0 ∧
    m.length + 1 + alg.lengthBytes ≤ (paddedMessage alg m).length ∧
    (paddedMessage alg m).length < m.length + 1 + alg.lengthBytes + alg.blockSize ∧
    (paddedMessage alg m).take (m.length + 1) = m ++ [0x80] ∧
    (∀ k, m.length + 1 ≤ k → k < (paddedMessage alg m).length - alg.lengthBytes →
      (paddedMessage alg m)[k]? = some 0x00) ∧
    (paddedMessage alg m).drop ((paddedMessage alg m).length - alg.lengthBytes) =
      lengthField alg (BitVec.ofNat 128 (8 * m.length)) ∧
    paddedBlocks alg m =
      if m.length % alg.blockSize ≤ alg.blockSize - alg.lengthBytes - 1 then m.length / alg.blockSize + 1
      else m.length / alg.blockSize + 2

/-- 43_finalize_padding.md R180, 42_update.md R158, 48_digest_format.md R326, 60_exceptions.md R343:
outside its phase UPDATE, FINALIZE or TOHEX raises InvalidState, and nothing but PHASE, ERR and the
response changes. -/
def Obligations.WrongPhaseRaisesInvalidState : Prop :=
  ∀ (i : Instr) (s : State),
    ((∃ data, i = .update data) ∧ s.phase ≠ .active) ∨ (i = .finalize ∧ s.phase ≠ .active) ∨
      (i = .toHex ∧ s.phase ≠ .done) →
    exec i s = .next { s with
      phase := .failed
      err := if s.phase = .failed then s.err else .invalidState
      rsp := some { status := .invalidState, len := 0, data := [] } }

/-! ## TOHEX and the digest -/

/-- 48_digest_format.md R326: in phase DONE TOHEX responds with the `2·D` characters of
`DIGEST[0..D−1]` and writes no register; in every other phase it raises InvalidState. -/
def Obligations.ToHexReadsDigest : Prop :=
  ∀ s : State,
    decode 0x4000 = .ok .toHex ∧
    (s.phase = .done →
      exec .toHex s = .next { s with
        rsp := some {
          status := .ok
          len := BitVec.ofNat 8 (2 * s.alg.digestBytes)
          data := toHexString (s.digest.toList.take s.alg.digestBytes) } }) ∧
    (s.phase ≠ .done → exec .toHex s = .next (raise .invalidState s))

/-- 48_digest_format.md R323, R324: two lowercase ASCII characters per byte, high nibble first, bytes in
increasing index, nothing else. -/
def Obligations.HexCharactersOfBytes : Prop :=
  (∀ v : BitVec 4, (hexChar v).toNat = if v.toNat ≤ 9 then 0x30 + v.toNat else 0x61 + (v.toNat - 10)) ∧
  ∀ bytes : List Byte, (toHexString bytes).length = 2 * bytes.length ∧
    ∀ k, k < bytes.length →
      (toHexString bytes).getD (2 * k) 0 = hexChar ((bytes.getD k 0).extractLsb' 4 4) ∧
      (toHexString bytes).getD (2 * k + 1) 0 = hexChar ((bytes.getD k 0).extractLsb' 0 4)

/-- 48_digest_format.md R320, R322: what each algorithm serialises and where it is cut. -/
def Obligations.SerialisationByAlgorithm : Prop :=
  ∀ h : Vector Word64 8,
    serialise .md5 h =
      le32enc (lowWord h[0]) ++ le32enc (lowWord h[1]) ++ le32enc (lowWord h[2]) ++ le32enc (lowWord h[3]) ∧
    serialise .sha1 h =
      be32enc (lowWord h[0]) ++ be32enc (lowWord h[1]) ++ be32enc (lowWord h[2]) ++ be32enc (lowWord h[3]) ++
      be32enc (lowWord h[4]) ∧
    serialise .sha224 h =
      be32enc (lowWord h[0]) ++ be32enc (lowWord h[1]) ++ be32enc (lowWord h[2]) ++ be32enc (lowWord h[3]) ++
      be32enc (lowWord h[4]) ++ be32enc (lowWord h[5]) ++ be32enc (lowWord h[6]) ∧
    serialise .sha256 h = serialise .sha224 h ++ be32enc (lowWord h[7]) ∧
    serialise .sha512_256 h = be64enc h[0] ++ be64enc h[1] ++ be64enc h[2] ++ be64enc h[3] ∧
    serialise .sha512_224 h =
      be64enc h[0] ++ be64enc h[1] ++ be64enc h[2] ++ be32enc (h[3].extractLsb' 32 32) ∧
    serialise .sha384 h = serialise .sha512_256 h ++ be64enc h[4] ++ be64enc h[5] ∧
    serialise .sha512 h = serialise .sha384 h ++ be64enc h[6] ++ be64enc h[7]

/-- 48_digest_format.md R327, R321: the byte-wise hex of a big-endian word is the word as hex digits,
most significant first, and MD5's is that of the mirrored word. -/
def Obligations.HexOfWordIsItsDigits : Prop :=
  (∀ x : Word32, toHexString (be32enc x) =
    [7, 6, 5, 4, 3, 2, 1, 0].map fun k => hexChar (x.extractLsb' (4 * k) 4)) ∧
  (∀ x : Word64, toHexString (be64enc x) =
    [15, 14, 13, 12, 11, 10, 9, 8, 7, 6, 5, 4, 3, 2, 1, 0].map fun k => hexChar (x.extractLsb' (4 * k) 4)) ∧
  ∀ x : Word32, le32enc x = be32enc (mirror32 x)

/-- 48_digest_format.md R325: the TOHEX payload has the algorithm's fixed width, whatever the message. -/
def Obligations.FixedOutputWidth : Prop :=
  ∀ s : State, s.phase = .done →
    ∃ t r, exec .toHex s = .next t ∧ t.rsp = some r ∧ r.status = .ok ∧ r.len.toNat = r.data.length ∧
      r.data.length = 2 * s.alg.digestBytes ∧ r.data.length =
      match s.alg with
      | .md5 => 32
      | .sha1 => 40
      | .sha224 => 56
      | .sha256 => 64
      | .sha384 => 96
      | .sha512 => 128
      | .sha512_224 => 56
      | .sha512_256 => 64

/-- 10_state.md R28, R24 and 43_finalize_padding.md R180: without an INIT no command sequence reaches
ACTIVE from another phase, so a second FINALIZE cannot succeed, and `DIGEST` is immutable. -/
def Obligations.DigestImmutableUntilInit : Prop :=
  ∀ (ws : List Word16) (s t : State) (rs : List Response), s.phase ≠ .active →
    (∀ w ∈ ws, ∀ alg, decode w ≠ .ok (initCommandOf alg)) →
    runCommands ws s = some (t, rs) →
    t.phase ≠ .active ∧ t.digest = s.digest ∧ t.alg = s.alg

/-! ## Errors and the lifecycle -/

/-- 60_exceptions.md R345: a command that answers with an error status has done exactly what `raise`
does: `ERR` takes the code unless the context had failed before, PHASE becomes FAILED, the response has
no payload, and every other register keeps the value it had when the command arrived. -/
def Obligations.ErrorsArePrecise : Prop :=
  ∀ (w : Word16) (s t : State) (r : Response), runCommand w s = .next t → t.rsp = some r → r.status ≠ .ok →
    t = { s with
      err := if s.phase = .failed then s.err else r.status
      phase := .failed
      rsp := some { status := r.status, len := 0, data := [] } }

/-- 60_exceptions.md R340 to R344: each error status is answered exactly for its cause, by the commands
that can raise it and by no other. -/
def Obligations.EachErrorHasItsCause : Prop :=
  ∀ (w : Word16) (s t : State) (r : Response), runCommand w s = .next t → t.rsp = some r →
    (r.status = .messageTooLarge ↔
      ∃ data, decode w = .ok (.update data) ∧ s.phase = .active ∧ s.len.toNat + 8 > 2 ^ s.alg.counterBits - 1) ∧
    (r.status = .invalidAlgorithmSelector ↔ ∃ selector, decode w = .ok (.initUndef selector)) ∧
    (r.status = .invalidState ↔
      ((∃ data, decode w = .ok (.update data)) ∧ s.phase ≠ .active) ∨
      (decode w = .ok .finalize ∧ s.phase ≠ .active) ∨ (decode w = .ok .toHex ∧ s.phase ≠ .done)) ∧
    (r.status = .illegalCommand ↔ ∃ e, decode w = .error e)

/-- 30_encoding.md R87, 60_exceptions.md R344: a word is illegal by (a), (b), (c) or (d) exactly when it
decodes to no command and no row of the table selects it, and then it raises IllegalCommand in every
phase and state. -/
def Obligations.IllegalWordsRaise : Prop :=
  ∀ (w : Word16) (s : State),
    ((opField w = 0 ∨ 5 ≤ (opField w).toNat) ∨ (opField w = 1 ∧ dataField w ≠ 0) ∨
      (opField w = 2 ∧ algField w ≠ 0) ∨
      ((opField w = 3 ∨ opField w = 4) ∧ (algField w ≠ 0 ∨ dataField w ≠ 0)) ↔
      ∃ e, decode w = .error e) ∧
    ((∃ e, decode w = .error e) ↔ ∀ row ∈ opcodeTable, row.selects w = false) ∧
    ((∃ e, decode w = .error e) → runCommand w s = .next { s with
      phase := .failed
      err := if s.phase = .failed then s.err else .illegalCommand
      rsp := some { status := .illegalCommand, len := 0, data := [] } })

/-- 60_exceptions.md R355: the checks in their order: the word's legality before the phase, the selector
and the phase next, the length counter last. -/
def Obligations.ChecksInFixedOrder : Prop :=
  ∀ (w : Word16) (s t : State) (r : Response), runCommand w s = .next t → t.rsp = some r →
    ((∃ e, decode w = .error e) → r.status = .illegalCommand) ∧
    (∀ selector, decode w = .ok (.initUndef selector) → r.status = .invalidAlgorithmSelector) ∧
    (∀ data, decode w = .ok (.update data) → s.phase ≠ .active → r.status = .invalidState) ∧
    (decode w = .ok .finalize → s.phase ≠ .active → r.status = .invalidState) ∧
    (decode w = .ok .toHex → s.phase ≠ .done → r.status = .invalidState) ∧
    (∀ data, decode w = .ok (.update data) → s.phase = .active →
      s.len.toNat + 8 > 2 ^ s.alg.counterBits - 1 → r.status = .messageTooLarge)

/-- 60_exceptions.md R360: the complete phase transition table. The columns are INIT with a defined
selector, INIT with an undefined one, UPDATE, FINALIZE, TOHEX and an illegal word; an UPDATE in phase
ACTIVE that overflows the counter answers 1 and fails. Every error entry is the `raise` of R345. -/
def Obligations.PhaseTransitionTable : Prop :=
  ∀ (w : Word16) (s t : State), runCommand w s = .next t → ∃ r, t.rsp = some r ∧
    (r.status ≠ .ok → ∃ e : ErrorKind, r.status = e.status ∧ t = raise e s) ∧
    (r.status, t.phase) =
      let column : Nat :=
        match decode w with
        | .ok (.initUndef _) => 1
        | .ok (.update _) => 2
        | .ok .finalize => 3
        | .ok .toHex => 4
        | .ok _ => 0
        | .error _ => 5
      let row : List (Status × Phase) :=
        match s.phase with
        | .uninit =>
          [(.ok, .active), (.invalidAlgorithmSelector, .failed), (.invalidState, .failed),
           (.invalidState, .failed), (.invalidState, .failed), (.illegalCommand, .failed)]
        | .active =>
          [(.ok, .active), (.invalidAlgorithmSelector, .failed),
           if s.len.toNat + 8 > 2 ^ s.alg.counterBits - 1 then (.messageTooLarge, .failed) else (.ok, .active),
           (.ok, .done), (.invalidState, .failed), (.illegalCommand, .failed)]
        | .done =>
          [(.ok, .active), (.invalidAlgorithmSelector, .failed), (.invalidState, .failed),
           (.invalidState, .failed), (.ok, .done), (.illegalCommand, .failed)]
        | .failed =>
          [(.ok, .active), (.invalidAlgorithmSelector, .failed), (.invalidState, .failed),
           (.invalidState, .failed), (.invalidState, .failed), (.illegalCommand, .failed)]
      row.getD column (.ok, .uninit)

/-- 60_exceptions.md R351, with R350: in FAILED a successful INIT creates a fresh context, and it is the only
command that leaves the phase; every other one answers the error of its kind and changes nothing but the
response, so `ERR` keeps the code of the first error. -/
def Obligations.OnlyInitLeavesFailed : Prop :=
  ∀ (w : Word16) (s t : State), s.phase = .failed → runCommand w s = .next t →
    (∃ alg, decode w = .ok (initCommandOf alg) ∧ t.phase = .active ∧ t.err = .ok) ∨
    ((∀ alg, decode w ≠ .ok (initCommandOf alg)) ∧
      ∃ r, r.len = 0 ∧ r.data = [] ∧ t = { s with rsp := some r } ∧
        r.status = match decode w with
          | .error _ => .illegalCommand
          | .ok (.initUndef _) => .invalidAlgorithmSelector
          | .ok _ => .invalidState)

/-! ## The whole machine -/

/-- 10_state.md R20's table "written by", R21, R23: only INIT changes `ALG`; `LEN` changes only by INIT
or by an UPDATE, which adds 8; `H`, `BUF` and `BUFLEN` only by INIT, UPDATE and FINALIZE; `DIGEST` only
by INIT and FINALIZE. No command touches the host's events or the model's counter of resets. -/
def Obligations.WhoWritesWhichRegister : Prop :=
  ∀ (i : Instr) (s t : State), exec i s = .next t →
    ((∃ alg, i = initCommandOf alg) ∨ t.alg = s.alg) ∧
    ((∃ alg, i = initCommandOf alg) ∨ t.len = s.len ∨ ((∃ data, i = .update data) ∧ t.len.toNat = s.len.toNat + 8)) ∧
    ((∃ alg, i = initCommandOf alg) ∨ (∃ data, i = .update data) ∨ i = .finalize ∨
      (t.h = s.h ∧ t.buf = s.buf ∧ t.buflen = s.buflen)) ∧
    ((∃ alg, i = initCommandOf alg) ∨ i = .finalize ∨ t.digest = s.digest) ∧
    t.input = s.input ∧ t.resets = s.resets

/-- 30_encoding.md R80, R90, R91: every command that runs gives exactly one response, well shaped, and an
OK response has the payload length of its command. The ports carry the response, with the status code of
R92, and the codes of `PHASE` and `ERR` (10_state.md R24, R25). On the port the bits above the payload are
zero, as R90 says and U11 leaves open (log entry 6). -/
def Obligations.EveryCommandResponds : Prop :=
  ∀ (w : Word16) (s t : State), runCommand w s = .next t → ∃ r, t.rsp = some r ∧
    r.len.toNat = r.data.length ∧ r.data.length ≤ 128 ∧ (r.status ≠ .ok → r.len = 0) ∧
    (r.status = .ok → r.data.length =
      match decode w with
      | .ok .finalize => s.alg.digestBytes
      | .ok .toHex => 2 * s.alg.digestBytes
      | .ok _ => 0
      | .error _ => 0) ∧
    (portsOf t).rspValid = true ∧ (portsOf t).rspLen = r.len ∧
    (portsOf t).rspStatus = (match r.status with
      | .ok => 0
      | .messageTooLarge => 1
      | .invalidAlgorithmSelector => 2
      | .invalidState => 3
      | .illegalCommand => 4) ∧
    (portsOf t).phase = (match t.phase with
      | .uninit => 0
      | .active => 1
      | .done => 2
      | .failed => 3) ∧
    (portsOf t).err = (match t.err with
      | .ok => 0
      | .messageTooLarge => 1
      | .invalidAlgorithmSelector => 2
      | .invalidState => 3
      | .illegalCommand => 4) ∧
    (∀ k, k < r.data.length → (portsOf t).rspData.extractLsb' (8 * k) 8 = r.data.getD k 0) ∧
    (∀ k, 8 * r.data.length ≤ k → (portsOf t).rspData.getLsbD k = false)

/-- 10_state.md R37 with R29: the machine right after reset meets the invariant. -/
def Obligations.ResetMeetsInvariant : Prop := State.reset.Inv

/-- 10_state.md R29, R25, R27: every step, of a command or of a reset, keeps the invariant of the phases
from every state that meets it. -/
def Obligations.StepKeepsInvariant : Prop :=
  ∀ s t : State, s.Inv → step s = .next t → t.Inv

/-- 20_memory.md R53, 60_exceptions.md R340: from every state that meets the invariant the step answers a
next state: no access is out of range, no command word, legal or not, stops the core. -/
def Obligations.CoreNeverStops : Prop :=
  ∀ s : State, s.Inv → ∃ t, step s = .next t

/-- 30_encoding.md R80, R86 and 60_exceptions.md R374, with the model's event stream (log entry 4): a step
runs the command its first event decodes to, raises on an illegal word, takes a reset, and is idle with
all state retained when there is no event. -/
def Obligations.StepRunsDecodedCommand : Prop :=
  ∀ (s : State) (w : Word16) (rest : List HostEvent),
    (∀ i, s.input = .cmd w :: rest → decode w = .ok i → step s = exec i { s with input := rest }) ∧
    (∀ e, s.input = .cmd w :: rest → decode w = .error e →
      step s = .next (raise .illegalCommand { s with input := rest })) ∧
    (s.input = [] → step s = .next s)

/-- 20_memory.md R63: the effect of a command sequence is the left-to-right composition of its commands,
and the machine's steps over the same words as events end in the same state. That the words stand in an
event stream whose later events are left is the model's choice (log entry 4). -/
def Obligations.SequencesCompose : Prop :=
  (∀ (ws ws' : List Word16) (s : State), runCommands (ws ++ ws') s =
    (runCommands ws s).bind fun p => (runCommands ws' p.1).map fun q => (q.1, p.2 ++ q.2)) ∧
  ∀ (ws : List Word16) (rest : List HostEvent) (s t : State) (rs : List Response),
    runCommands ws s = some (t, rs) →
    Host.Core.run Sys2Proof.core ws.length { s with input := ws.map .cmd ++ rest } = .next { t with input := rest }

/-- 30_encoding.md R95 chunking invariance, 42_update.md R156: feeding two sequences by separate Updates
ends where feeding their concatenation ends, with the first failure's status, and a failed Update has
failed the context. -/
def Obligations.ChunkingInvariance : Prop :=
  (∀ (m m' : List Byte) (s : State), apiUpdate (m ++ m') s =
    (apiUpdate m s).bind fun p => (apiUpdate m' p.1).map fun q => (q.1, if p.2 = .ok then q.2 else p.2)) ∧
  ∀ (m : List Byte) (s t : State) (status : Status), apiUpdate m s = some (t, status) → status ≠ .ok →
    t.phase = .failed

/-- 10_state.md R36 (a): the stale bytes `BUF[BUFLEN..255]` are unobservable. Two ACTIVE contexts that
differ only there take the same step with the same response, and stay alike; a reset, like an error,
ends the context, and what differs after it is a context register that no command observes. -/
def Obligations.StaleBytesUnobservable : Prop :=
  ∀ s t : State, sameButStaleBytes s t → s.buf.wf = true → t.buf.wf = true →
    s.phase = .active → s.buflen.toNat < s.alg.blockSize →
    ∃ s' t', step s = .next s' ∧ step t = .next t' ∧ s'.rsp = t'.rsp ∧
      (s' = t' ∨ (sameButStaleBytes s' t' ∧ s'.phase = .active) ∨ 
        (sameOutsideContext s' t' ∧ (s'.phase = .failed ∨ s'.phase = .uninit)))

/-- 42_update.md R157, 43_finalize_padding.md R177, 70_reset_and_hazards.md R384: from any state, INIT, one
UPDATE per message byte, FINALIZE and TOHEX answer OK throughout, and the digest and its string are
those of the message padded and compressed as a whole; so they depend on the algorithm and the message
alone. -/
def Obligations.StreamedDigestIsDigestOfMessage : Prop :=
  ∀ (alg : Alg) (m : List Byte) (s : State), 8 * m.length ≤ 2 ^ alg.counterBits - 8 →
    ∃ t, runCommands
        ([encode (initCommandOf alg)] ++ updateWords m ++ [encode .finalize, encode .toHex]) s =
      some (t,
        List.replicate (m.length + 1) { status := .ok, len := 0, data := [] } ++
        [{ status := .ok, len := BitVec.ofNat 8 alg.digestBytes, data := hashDigest alg m },
         { status := .ok, len := BitVec.ofNat 8 (2 * alg.digestBytes), data := toHexString (hashDigest alg m) }]) ∧
      t.phase = .done ∧ t.err = .ok ∧ t.alg = alg

/-! ## Encoding -/

/-- 30_encoding.md R81 to R88: the encoder and the decoder are inverse: every well-formed command is read
back with every operand at every value, and every legal word is the encoding of the well-formed command
it decodes to. -/
def Obligations.DecodeAndEncodeAgree : Prop :=
  (∀ i : Instr, i.wf = true → decode (encode i) = .ok i) ∧
  ∀ (w : Word16) (i : Instr), decode w = .ok i → i.wf = true ∧ encode i = w

/-- 30_encoding.md R88: a word selects a row of the table by mask and match exactly when it decodes to that
row's command; no word selects two rows; a word that selects none raises IllegalCommand. -/
def Obligations.OpcodeTableDecides : Prop :=
  ∀ w : Word16,
    (∀ row ∈ opcodeTable, row.selects w = true ↔ ∃ i, decode w = .ok i ∧ i.mnemonic = row.mnemonic) ∧
    (opcodeTable.filter fun row => row.selects w).length ≤ 1 ∧
    ((∀ row ∈ opcodeTable, row.selects w = false) → ∀ s, runCommand w s = .next (raise .illegalCommand s))

/-- 30_encoding.md R88 and the words of 95_test_vectors.md section 2.1: a few words written out from the
encodings, one or more of every family, decode to the command they stand for, and the illegal ones to
none. -/
def Obligations.SampleWordsDecode : Prop :=
  decode 0b0001000000000000 = .ok .initMd5 ∧ decode 0b0001001100000000 = .ok .initSha256 ∧
  decode 0b0001011100000000 = .ok .initSha512_256 ∧ decode 0b0001100000000000 = .ok (.initUndef 8) ∧
  decode 0b0001111100000000 = .ok (.initUndef 15) ∧ decode 0b0010000001100001 = .ok (.update 0x61) ∧
  decode 0b0011000000000000 = .ok .finalize ∧ decode 0b0100000000000000 = .ok .toHex ∧
  decode 0x1301 = .error .initData ∧ decode 0x1801 = .error .initData ∧ decode 0x2161 = .error .updateAlg ∧
  decode 0x3001 = .error .formatZField ∧ decode 0x4010 = .error .formatZField ∧
  decode 0x0000 = .error .reservedOp ∧ decode 0x5000 = .error .reservedOp ∧ decode 0xffff = .error .reservedOp

/-! ## The bit utilities and the compression functions -/

/-- 40_bit_utilities.md R112, R113, R114: the rotates and the shift as arithmetic on `0 ≤ s < w`, and
`ROTR_w(x, s) = ROTL_w(x, w − s)`. -/
def Obligations.RotateAndShiftFormulas : Prop :=
  ∀ (w : Nat) (x : BitVec w) (s : Nat), s < w →
    (rotl x s).toNat = x.toNat * 2 ^ s % 2 ^ w + x.toNat / 2 ^ (w - s) ∧
    (rotr x s).toNat = x.toNat / 2 ^ s + x.toNat % 2 ^ s * 2 ^ (w - s) ∧
    (shr x s).toNat = x.toNat / 2 ^ s ∧
    rotl x 0 = x ∧ rotr x 0 = x ∧ (0 < s → rotr x s = rotl x (w - s))

/-- 40_bit_utilities.md R117, R118, R116: the decoders as sums, each the inverse of the encoder of its
name, and `BE32dec(M) = MIRROR32(LE32dec(M))`. -/
def Obligations.ByteOrderCodecs : Prop :=
  (∀ m0 m1 m2 m3 : Byte,
    (le32dec m0 m1 m2 m3).toNat = m0.toNat + m1.toNat * 2 ^ 8 + m2.toNat * 2 ^ 16 + m3.toNat * 2 ^ 24 ∧
    (be32dec m0 m1 m2 m3).toNat = m0.toNat * 2 ^ 24 + m1.toNat * 2 ^ 16 + m2.toNat * 2 ^ 8 + m3.toNat ∧
    le32enc (le32dec m0 m1 m2 m3) = [m0, m1, m2, m3] ∧ be32enc (be32dec m0 m1 m2 m3) = [m0, m1, m2, m3] ∧
    be32dec m0 m1 m2 m3 = mirror32 (le32dec m0 m1 m2 m3)) ∧
  (∀ m0 m1 m2 m3 m4 m5 m6 m7 : Byte,
    (be64dec m0 m1 m2 m3 m4 m5 m6 m7).toNat =
      m0.toNat * 2 ^ 56 + m1.toNat * 2 ^ 48 + m2.toNat * 2 ^ 40 + m3.toNat * 2 ^ 32 +
      m4.toNat * 2 ^ 24 + m5.toNat * 2 ^ 16 + m6.toNat * 2 ^ 8 + m7.toNat ∧
    be64enc (be64dec m0 m1 m2 m3 m4 m5 m6 m7) = [m0, m1, m2, m3, m4, m5, m6, m7]) ∧
  (∀ x : Word64, (be64enc x).reverse = le64enc x ∧
    (be64enc x).foldl (fun n b => n * 256 + b.toNat) 0 = x.toNat) ∧
  (∀ x : Word32, (be32enc x).reverse = le32enc x ∧
    (be32enc x).foldl (fun n b => n * 256 + b.toNat) 0 = x.toNat) ∧
  ∀ x : BitVec 128, be128enc x = be64enc (x.extractLsb' 64 64) ++ be64enc (x.extractLsb' 0 64) ∧
    (be128enc x).foldl (fun n b => n * 256 + b.toNat) 0 = x.toNat

/-- 45_sha1_compress.md R231, R232, 46_sha256_compress.md R261, R262, 47_sha512_compress.md R291, R292: the
three schedules have one word per round, the first sixteen loaded big-endian, byte by byte (20_memory.md
R54), and every later one given by its recurrence, the small sigmas written out (R268, R298). -/
def Obligations.ScheduleRecurrences : Prop :=
  ∀ M : List Byte,
    let small0 := fun x : Word32 => rotr x 7 ^^^ rotr x 18 ^^^ shr x 3
    let small1 := fun x : Word32 => rotr x 17 ^^^ rotr x 19 ^^^ shr x 10
    let wide0 := fun x : Word64 => rotr x 1 ^^^ rotr x 8 ^^^ shr x 7
    let wide1 := fun x : Word64 => rotr x 19 ^^^ rotr x 61 ^^^ shr x 6
    let byte := fun i => M.getD i 0
    ((sha1Schedule M).length = 80 ∧
      (∀ t, t < 16 → (sha1Schedule M).getD t 0 =
        be32dec (byte (4 * t)) (byte (4 * t + 1)) (byte (4 * t + 2)) (byte (4 * t + 3))) ∧
      ∀ t, 16 ≤ t → t < 80 → (sha1Schedule M).getD t 0 =
        rotl ((sha1Schedule M).getD (t - 3) 0 ^^^ (sha1Schedule M).getD (t - 8) 0 ^^^
          (sha1Schedule M).getD (t - 14) 0 ^^^ (sha1Schedule M).getD (t - 16) 0) 1) ∧
    ((sha256Schedule M).length = 64 ∧
      (∀ t, t < 16 → (sha256Schedule M).getD t 0 =
        be32dec (byte (4 * t)) (byte (4 * t + 1)) (byte (4 * t + 2)) (byte (4 * t + 3))) ∧
      ∀ t, 16 ≤ t → t < 64 → (sha256Schedule M).getD t 0 =
        small1 ((sha256Schedule M).getD (t - 2) 0) + (sha256Schedule M).getD (t - 7) 0 +
          small0 ((sha256Schedule M).getD (t - 15) 0) + (sha256Schedule M).getD (t - 16) 0) ∧
    ((sha512Schedule M).length = 80 ∧
      (∀ t, t < 16 → (sha512Schedule M).getD t 0 =
        be64dec (byte (8 * t)) (byte (8 * t + 1)) (byte (8 * t + 2)) (byte (8 * t + 3))
          (byte (8 * t + 4)) (byte (8 * t + 5)) (byte (8 * t + 6)) (byte (8 * t + 7))) ∧
      ∀ t, 16 ≤ t → t < 80 → (sha512Schedule M).getD t 0 =
        wide1 ((sha512Schedule M).getD (t - 2) 0) + (sha512Schedule M).getD (t - 7) 0 +
          wide0 ((sha512Schedule M).getD (t - 15) 0) + (sha512Schedule M).getD (t - 16) 0)

/-- 46_sha256_compress.md R263 and 47_sha512_compress.md R293: `K512[t]` is the first 64 bits of the
fractional part of the cube root of the `(t+1)`-th prime, that is `⌊2^64·∛p⌋ mod 2^64`, said by cubes, and
`K256[t]` the first 32 bits, its high half. -/
def Obligations.RoundConstantsAreCubeRoots : Prop :=
  sha512K.length = 80 ∧ sha256K.length = 64 ∧
  (∀ t, t < 80 → ∃ q,
    let primes : List Nat := ([2, 3, 5, 7, 11, 13, 17, 19, 23, 29, 31, 37, 41, 43, 47, 53, 59, 61, 67, 71] ++
      [73, 79, 83, 89, 97, 101, 103, 107, 109, 113, 127, 131, 137, 139, 149, 151, 157, 163, 167, 173] ++
      [179, 181, 191, 193, 197, 199, 211, 223, 227, 229, 233, 239, 241, 251, 257, 263, 269, 271, 277, 281] ++
      [283, 293, 307, 311, 313, 317, 331, 337, 347, 349, 353, 359, 367, 373, 379, 383, 389, 397, 401, 409])
    let p := primes.getD t 0
    (q * 2 ^ 64 + (sha512K.getD t 0).toNat) ^ 3 ≤ p * 2 ^ 192 ∧
    p * 2 ^ 192 < (q * 2 ^ 64 + (sha512K.getD t 0).toNat + 1) ^ 3) ∧
  ∀ t, t < 64 → sha256K.getD t 0 = (sha512K.getD t 0).extractLsb' 32 32

/-- 44_md5_compress.md R204, R205 to R208 with R203: MD5Compress loads its registers from the state words,
and step `i` writes the four simultaneously by the step of its round, from word `g(i)` of the block, assembled
little-endian from its four bytes (R201, 20_memory.md R54). -/
def Obligations.Md5StepEquations : Prop :=
  (∀ (Hin : Md5Regs) (M : List Byte), md5Steps Hin M 0 = Hin) ∧
  ∀ (Hin : Md5Regs) (M : List Byte) (i : Nat), i < 64 →
    let r := md5Steps Hin M i
    let f : Word32 :=
      if i < 16 then (r.b &&& r.c) ||| (~~~r.b &&& r.d)
      else if i < 32 then (r.b &&& r.d) ||| (r.c &&& ~~~r.d)
      else if i < 48 then r.b ^^^ r.c ^^^ r.d
      else r.c ^^^ (r.b ||| ~~~r.d)
    let g : Nat :=
      if i < 16 then i else if i < 32 then (5 * i + 1) % 16 else if i < 48 then (3 * i + 5) % 16 else 7 * i % 16
    let amount : Nat :=
      (if i < 16 then [7, 12, 17, 22] else if i < 32 then [5, 9, 14, 20]
        else if i < 48 then [4, 11, 16, 23] else [6, 10, 15, 21]).getD (i % 4) 0
    let X : Word32 := le32dec (M.getD (4 * g) 0) (M.getD (4 * g + 1) 0) (M.getD (4 * g + 2) 0) (M.getD (4 * g + 3) 0)
    md5Steps Hin M (i + 1) =
      { a := r.d, b := r.b + rotl (r.a + f + X + md5T.getD i 0) amount, c := r.b, d := r.c }

/-- 45_sha1_compress.md R234, R236 to R239 with R233, R235: the load and round `t` of SHA1Compress. -/
def Obligations.Sha1RoundEquations : Prop :=
  (∀ (Hin : Sha1Regs) (M : List Byte), sha1Rounds Hin M 0 = Hin) ∧
  ∀ (Hin : Sha1Regs) (M : List Byte) (t : Nat), t < 80 →
    let r := sha1Rounds Hin M t
    let f : Word32 :=
      if t < 20 then (r.b &&& r.c) ||| (~~~r.b &&& r.d)
      else if t < 40 then r.b ^^^ r.c ^^^ r.d
      else if t < 60 then (r.b &&& r.c) ||| (r.b &&& r.d) ||| (r.c &&& r.d)
      else r.b ^^^ r.c ^^^ r.d
    let K : Word32 :=
      if t < 20 then 0x5A827999 else if t < 40 then 0x6ED9EBA1 else if t < 60 then 0x8F1BBCDC else 0xCA62C1D6
    sha1Rounds Hin M (t + 1) =
      { a := rotl r.a 5 + f + r.e + K + (sha1Schedule M).getD t 0, b := r.a, c := rotl r.b 30, d := r.c, e := r.d }

/-- 46_sha256_compress.md R264, R269 and 47_sha512_compress.md R294, R299, with CH, MAJ and the big sigmas
written out (R265 to R267, R295 to R297): the load and round `t` of the two SHA-2 units. -/
def Obligations.Sha2RoundEquations : Prop :=
  (∀ (Hin : Sha2Regs 32) (M : List Byte), sha256Rounds Hin M 0 = Hin) ∧
  (∀ (Hin : Sha2Regs 64) (M : List Byte), sha512Rounds Hin M 0 = Hin) ∧
  (∀ (Hin : Sha2Regs 32) (M : List Byte) (t : Nat), t < 64 →
    let r := sha256Rounds Hin M t
    let T1 := r.h + (rotr r.e 6 ^^^ rotr r.e 11 ^^^ rotr r.e 25) + ((r.e &&& r.f) ^^^ (~~~r.e &&& r.g)) +
      sha256K.getD t 0 + (sha256Schedule M).getD t 0
    let T2 := (rotr r.a 2 ^^^ rotr r.a 13 ^^^ rotr r.a 22) + ((r.a &&& r.b) ^^^ (r.a &&& r.c) ^^^ (r.b &&& r.c))
    sha256Rounds Hin M (t + 1) =
      { a := T1 + T2, b := r.a, c := r.b, d := r.c, e := r.d + T1, f := r.e, g := r.f, h := r.g }) ∧
  ∀ (Hin : Sha2Regs 64) (M : List Byte) (t : Nat), t < 80 →
    let r := sha512Rounds Hin M t
    let T1 := r.h + (rotr r.e 14 ^^^ rotr r.e 18 ^^^ rotr r.e 41) + ((r.e &&& r.f) ^^^ (~~~r.e &&& r.g)) +
      sha512K.getD t 0 + (sha512Schedule M).getD t 0
    let T2 := (rotr r.a 28 ^^^ rotr r.a 34 ^^^ rotr r.a 39) + ((r.a &&& r.b) ^^^ (r.a &&& r.c) ^^^ (r.b &&& r.c))
    sha512Rounds Hin M (t + 1) =
      { a := T1 + T2, b := r.a, c := r.b, d := r.c, e := r.d + T1, f := r.e, g := r.f, h := r.g }

/-- 44_md5_compress.md R209, 45_sha1_compress.md R240, 46_sha256_compress.md R270, 47_sha512_compress.md
R300, through 20_memory.md R60: `Compress` adds the final working registers to the input state words,
word by word; 32-bit words end up zero-extended, and `H[n..7]` keep their values. -/
def Obligations.CompressAddsIntoStateWords : Prop :=
  ∀ (alg : Alg) (h : Vector Word64 8) (M : List Byte),
    (alg.unit = .md5Compress → let r := md5Steps (md5In h) M 64
      compress alg h M = #v[zextWord (lowWord h[0] + r.a), zextWord (lowWord h[1] + r.b),
        zextWord (lowWord h[2] + r.c), zextWord (lowWord h[3] + r.d), h[4], h[5], h[6], h[7]]) ∧
    (alg.unit = .sha1Compress → let r := sha1Rounds (sha1In h) M 80
      compress alg h M = #v[zextWord (lowWord h[0] + r.a), zextWord (lowWord h[1] + r.b),
        zextWord (lowWord h[2] + r.c), zextWord (lowWord h[3] + r.d), zextWord (lowWord h[4] + r.e), h[5], h[6], h[7]]) ∧
    (alg.unit = .sha256Compress → let r := sha256Rounds (sha256In h) M 64
      compress alg h M = #v[zextWord (lowWord h[0] + r.a), zextWord (lowWord h[1] + r.b),
        zextWord (lowWord h[2] + r.c), zextWord (lowWord h[3] + r.d), zextWord (lowWord h[4] + r.e),
        zextWord (lowWord h[5] + r.f), zextWord (lowWord h[6] + r.g), zextWord (lowWord h[7] + r.h)]) ∧
    (alg.unit = .sha512Compress → let r := sha512Rounds (sha512In h) M 80
      compress alg h M = #v[h[0] + r.a, h[1] + r.b, h[2] + r.c, h[3] + r.d,
        h[4] + r.e, h[5] + r.f, h[6] + r.g, h[7] + r.h])

/-- 20_memory.md R60, 10_state.md R22: a compression reads only the architectural words and the `B` bytes of
its block, leaves `H[n..7]` alone, and keeps the unused part of `H` zero. -/
def Obligations.CompressUsesOnlyItsInputs : Prop :=
  ∀ (alg : Alg) (h h' : Vector Word64 8) (M M' : List Byte),
    (∀ k : Fin 8, alg.stateWords ≤ k.val → (compress alg h M)[k] = h[k]) ∧
    (unusedWordsZero alg h → unusedWordsZero alg (compress alg h M)) ∧
    ((∀ k : Fin 8, k.val < alg.stateWords → h[k].setWidth alg.wordBits = h'[k].setWidth alg.wordBits) →
      (∀ j, j < alg.blockSize → M.getD j 0 = M'.getD j 0) →
      ∀ k : Fin 8, k.val < alg.stateWords → (compress alg h M)[k] = (compress alg h' M')[k])

/-- 10_state.md R31, 45_sha1_compress.md R230, 46_sha256_compress.md R260, 47_sha512_compress.md R290: keeping
only the most recent sixteen schedule words, expanded between the rounds, gives the same state words. -/
def Obligations.RollingScheduleAgrees : Prop :=
  (∀ (Hin : Sha1Regs) (M : List Byte), sha1CompressRolling Hin M = sha1Compress Hin M) ∧
  (∀ (Hin : Sha2Regs 32) (M : List Byte), sha256CompressRolling Hin M = sha256Compress Hin M) ∧
  ∀ (Hin : Sha2Regs 64) (M : List Byte), sha512CompressRolling Hin M = sha512Compress Hin M

/-- 44_md5_compress.md R211: RFC 1321's steps on fixed registers whose roles rotate leave the same four
registers after 64 steps. -/
def Obligations.Md5PublishedFormAgrees : Prop :=
  ∀ (Hin : Md5Regs) (M : List Byte), md5RfcSteps Hin M 64 = md5Steps Hin M 64

/-- 44_md5_compress.md R203: the table of MD5's 64 steps, written out from the rule: the constants `T[i]`,
the rotate amounts `S[i]` and the word indices `g(i)`. -/
def Obligations.Md5StepTable : Prop :=
  md5T =
    [0xd76aa478, 0xe8c7b756, 0x242070db, 0xc1bdceee, 0xf57c0faf, 0x4787c62a, 0xa8304613, 0xfd469501] ++
    [0x698098d8, 0x8b44f7af, 0xffff5bb1, 0x895cd7be, 0x6b901122, 0xfd987193, 0xa679438e, 0x49b40821] ++
    [0xf61e2562, 0xc040b340, 0x265e5a51, 0xe9b6c7aa, 0xd62f105d, 0x02441453, 0xd8a1e681, 0xe7d3fbc8] ++
    [0x21e1cde6, 0xc33707d6, 0xf4d50d87, 0x455a14ed, 0xa9e3e905, 0xfcefa3f8, 0x676f02d9, 0x8d2a4c8a] ++
    [0xfffa3942, 0x8771f681, 0x6d9d6122, 0xfde5380c, 0xa4beea44, 0x4bdecfa9, 0xf6bb4b60, 0xbebfbc70] ++
    [0x289b7ec6, 0xeaa127fa, 0xd4ef3085, 0x04881d05, 0xd9d4d039, 0xe6db99e5, 0x1fa27cf8, 0xc4ac5665] ++
    [0xf4292244, 0x432aff97, 0xab9423a7, 0xfc93a039, 0x655b59c3, 0x8f0ccc92, 0xffeff47d, 0x85845dd1] ++
    [0x6fa87e4f, 0xfe2ce6e0, 0xa3014314, 0x4e0811a1, 0xf7537e82, 0xbd3af235, 0x2ad7d2bb, 0xeb86d391] ∧
  (List.range 64).map md5S =
    [7, 12, 17, 22, 7, 12, 17, 22, 7, 12, 17, 22, 7, 12, 17, 22] ++
    [5, 9, 14, 20, 5, 9, 14, 20, 5, 9, 14, 20, 5, 9, 14, 20] ++
    [4, 11, 16, 23, 4, 11, 16, 23, 4, 11, 16, 23, 4, 11, 16, 23] ++
    [6, 10, 15, 21, 6, 10, 15, 21, 6, 10, 15, 21, 6, 10, 15, 21] ∧
  (List.range 64).map md5G =
    [0, 1, 2, 3, 4, 5, 6, 7, 8, 9, 10, 11, 12, 13, 14, 15] ++
    [1, 6, 11, 0, 5, 10, 15, 4, 9, 14, 3, 8, 13, 2, 7, 12] ++
    [5, 8, 11, 14, 1, 4, 7, 10, 13, 0, 3, 6, 9, 12, 15, 2] ++
    [0, 7, 14, 5, 12, 3, 10, 1, 8, 15, 6, 13, 4, 11, 2, 9]

/-- 44_md5_compress.md R202: `T[i] = floor(2^32 × |sin(i + 1)|)`, the argument in radians, for all 64 steps. -/
def Obligations.Md5ConstantsAreSines : Prop :=
  md5T.length = 64 ∧
  ∀ i : Nat, i < 64 → (md5T.getD i 0).toNat = ⌊2 ^ 32 * |Real.sin ((i : ℝ) + 1)|⌋₊
end

