-- ==== Sys2Proof/Laws/Memory.lean ====
section
/-! SUPPORT. The buffer memory: reading after writing, and that every memory operation keeps the
canonical form. -/

namespace Sys2Proof.Machine

@[simp] theorem Memory.read_zeroed (a : Nat) : Memory.zeroed.read a = 0x00 := rfl

@[simp] theorem Memory.wf_zeroed : Memory.zeroed.wf = true := rfl

theorem Memory.wfFrom_cons (lo a : Nat) (v : Byte) (m : Memory) :
    Memory.wfFrom lo ((a, v) :: m) = true ↔
      lo ≤ a ∧ a < 256 ∧ v ≠ Memory.unlisted ∧ Memory.wfFrom (a + 1) m = true := by
  simp [Memory.wfFrom, and_assoc]

/-- A lower bound on the addresses can be lowered. -/
theorem Memory.wfFrom_mono {lo lo' : Nat} (h : lo' ≤ lo) :
    ∀ {m : Memory}, Memory.wfFrom lo m = true → Memory.wfFrom lo' m = true
  | [], _ => rfl
  | (a, v) :: m, hm => by
    rw [Memory.wfFrom_cons] at hm ⊢
    exact ⟨h.trans hm.1, hm.2⟩

/-- Below its lower bound a canonical memory lists nothing. -/
theorem Memory.read_below {lo : Nat} :
    ∀ {m : Memory} {a : Nat}, Memory.wfFrom lo m = true → a < lo → m.read a = Memory.unlisted
  | [], _, _, _ => rfl
  | (b, v) :: m, a, hm, ha => by
    rw [Memory.wfFrom_cons] at hm
    have hne : a ≠ b := by omega
    simp only [Memory.read, hne, if_false]
    exact Memory.read_below hm.2.2.2 (by omega)

/-- A write of an existing address keeps the form, whatever the lower bound it respects. -/
theorem Memory.wfFrom_write {lo : Nat} :
    ∀ {m : Memory} {a : Nat} {v : Byte}, Memory.wfFrom lo m = true → lo ≤ a → a < 256 →
      Memory.wfFrom lo (m.write a v) = true
  | [], a, v, _, hlo, ha => by
    by_cases hv : v = Memory.unlisted <;> simp [Memory.write, hv, Memory.wfFrom, hlo, ha]
  | (b, w) :: m, a, v, hm, hlo, ha => by
    have hm' := (Memory.wfFrom_cons lo b w m).mp hm
    by_cases h1 : a < b
    · by_cases hv : v = Memory.unlisted
      · simpa [Memory.write, h1, hv] using hm
      · simp only [Memory.write, h1, hv, if_true, if_false]
        rw [Memory.wfFrom_cons, Memory.wfFrom_cons]
        exact ⟨hlo, ha, hv, by omega, hm'.2.1, hm'.2.2.1, hm'.2.2.2⟩
    · by_cases h2 : a = b
      · subst h2
        by_cases hv : v = Memory.unlisted
        · simp only [Memory.write, h1, hv, if_true, if_false]
          exact Memory.wfFrom_mono (by omega) hm'.2.2.2
        · simp only [Memory.write, h1, hv, if_true, if_false]
          rw [Memory.wfFrom_cons]
          exact ⟨hlo, ha, hv, hm'.2.2.2⟩
      · simp only [Memory.write, h1, h2, if_false]
        rw [Memory.wfFrom_cons]
        exact ⟨hm'.1, hm'.2.1, hm'.2.2.1, Memory.wfFrom_write hm'.2.2.2 (by omega) ha⟩

/-- A byte write keeps the canonical form. -/
theorem Memory.wf_write {m : Memory} {a : Nat} {v : Byte} (h : m.wf = true) (ha : a < 256) :
    (m.write a v).wf = true :=
  Memory.wfFrom_write h (Nat.zero_le a) ha

/-- A read after a write: the byte written at its address, and the old byte elsewhere. -/
theorem Memory.read_write_from {lo : Nat} :
    ∀ {m : Memory} (a : Nat) (v : Byte) (x : Nat), Memory.wfFrom lo m = true →
      (m.write a v).read x = if x = a then v else m.read x
  | [], a, v, x, _ => by
    by_cases hv : v = Memory.unlisted <;> by_cases hx : x = a <;>
      simp [Memory.write, Memory.read, hv, hx]
  | (b, w) :: m, a, v, x, hm => by
    have hm' := (Memory.wfFrom_cons lo b w m).mp hm
    by_cases h1 : a < b
    · by_cases hv : v = Memory.unlisted
      · have hab : a ≠ b := by omega
        have hr := Memory.read_below hm'.2.2.2 (show a < b + 1 by omega)
        by_cases hx : x = a
        · subst hx; simp [Memory.write, Memory.read, h1, hv, hab, hr]
        · simp [Memory.write, h1, hv, hx]
      · by_cases hx : x = a <;> simp [Memory.write, Memory.read, h1, hv, hx]
    · by_cases h2 : a = b
      · subst h2
        by_cases hv : v = Memory.unlisted
        · have hr := Memory.read_below hm'.2.2.2 (Nat.lt_succ_self a)
          by_cases hx : x = a
          · subst hx; simp [Memory.write, hv, hr]
          · simp [Memory.write, Memory.read, hv, hx]
        · by_cases hx : x = a <;> simp [Memory.write, Memory.read, hv, hx]
      · by_cases hx : x = b
        · have hba : b ≠ a := fun h => h2 h.symm
          subst hx; simp [Memory.write, Memory.read, h1, h2, hba]
        · simp [Memory.write, Memory.read, h1, h2, hx, Memory.read_write_from a v x hm'.2.2.2]

theorem Memory.read_write {m : Memory} (a : Nat) (v : Byte) (x : Nat) (h : m.wf = true) :
    (m.write a v).read x = if x = a then v else m.read x :=
  Memory.read_write_from a v x h

/-- A write of a byte sequence that is in range keeps the canonical form. -/
theorem Memory.wf_writeBytes :
    ∀ {m : Memory} {a : Nat} {vs : List Byte}, m.wf = true → a + vs.length ≤ 256 →
      (m.writeBytes a vs).wf = true
  | _, _, [], h, _ => h
  | m, a, v :: vs, h, ha => by
    simp only [List.length_cons] at ha
    have hw := Memory.wf_write (v := v) h (show a < 256 by omega)
    exact Memory.wf_writeBytes (m := m.write a v) hw (by omega)

/-- A read after a write of a byte sequence. -/
theorem Memory.read_writeBytes :
    ∀ {m : Memory} {a : Nat} {vs : List Byte} (x : Nat), m.wf = true → a + vs.length ≤ 256 →
      (m.writeBytes a vs).read x =
        if a ≤ x ∧ x < a + vs.length then vs.getD (x - a) 0 else m.read x
  | m, a, [], x, _, _ => by
    have : ¬(a ≤ x ∧ x < a + ([] : List Byte).length) := by simp
    simp [Memory.writeBytes]
  | m, a, v :: vs, x, h, ha => by
    simp only [List.length_cons] at ha
    have hw := Memory.wf_write (v := v) h (show a < 256 by omega)
    rw [Memory.writeBytes, Memory.read_writeBytes x hw (by omega), Memory.read_write a v x h]
    by_cases hx : x = a
    · subst hx
      have h1 : ¬(x + 1 ≤ x ∧ x < x + 1 + vs.length) := by omega
      have h2 : x ≤ x ∧ x < x + (vs.length + 1) := by omega
      simp [List.length_cons]
    · by_cases h1 : a + 1 ≤ x ∧ x < a + 1 + vs.length
      · have h2 : a ≤ x ∧ x < a + (v :: vs).length := by simp only [List.length_cons]; omega
        obtain ⟨k, rfl⟩ : ∃ k, x = a + 1 + k := ⟨x - (a + 1), by omega⟩
        rw [if_pos h1, if_pos h2]
        have e1 : a + 1 + k - (a + 1) = k := by omega
        have e2 : a + 1 + k - a = k + 1 := by omega
        rw [e1, e2, List.getD_cons_succ]
      · have h2 : ¬(a ≤ x ∧ x < a + (v :: vs).length) := by simp only [List.length_cons]; omega
        rw [if_neg h1, if_neg h2, if_neg hx]

@[simp] theorem Memory.length_readBytes (m : Memory) (a n : Nat) : (m.readBytes a n).length = n := by
  simp [Memory.readBytes]

/-- `memWrite` writes exactly when the access is in range. -/
theorem memWrite_eq_some {addr : Nat} {v : List Byte} {m m' : Memory} :
    memWrite addr v m = some m' ↔ addr + v.length ≤ 256 ∧ m' = m.writeBytes addr v := by
  unfold memWrite
  split <;> simp_all [eq_comm]

theorem memWrite_eq_none {addr : Nat} {v : List Byte} {m : Memory} :
    memWrite addr v m = none ↔ 256 < addr + v.length := by
  unfold memWrite
  split <;> simp_all

/-- `memRead` reads exactly when the access is in range. -/
theorem memRead_of_le {addr n : Nat} (h : addr + n ≤ 256) (m : Memory) :
    memRead addr n m = some (m.readBytes addr n) := by
  simp [memRead, h]

/-- A write that is in range keeps the canonical form. -/
theorem memWrite_wf {addr : Nat} {v : List Byte} {m m' : Memory}
    (h : memWrite addr v m = some m') (hm : m.wf = true) : m'.wf = true := by
  obtain ⟨ha, rfl⟩ := memWrite_eq_some.mp h
  exact Memory.wf_writeBytes hm ha

/-- Two canonical memories that read alike everywhere are the same list. -/
theorem Memory.ext_from {lo : Nat} :
    ∀ {m m' : Memory}, Memory.wfFrom lo m = true → Memory.wfFrom lo m' = true →
      (∀ a, m.read a = m'.read a) → m = m'
  | [], [], _, _, _ => rfl
  | [], (b, w) :: m', _, h', he => by
    rw [Memory.wfFrom_cons] at h'
    have := he b
    simp only [Memory.read, if_true] at this
    exact absurd this.symm h'.2.2.1
  | (a, v) :: m, [], h, _, he => by
    rw [Memory.wfFrom_cons] at h
    have := he a
    simp only [Memory.read, if_true] at this
    exact absurd this h.2.2.1
  | (a, v) :: m, (b, w) :: m', h, h', he => by
    rw [Memory.wfFrom_cons] at h h'
    have hab : a = b := by
      rcases Nat.lt_trichotomy a b with hlt | heq | hgt
      · have := he a
        have hne : a ≠ b := by omega
        simp only [Memory.read, if_true, hne, if_false] at this
        rw [Memory.read_below h'.2.2.2 (by omega)] at this
        exact absurd this h.2.2.1
      · exact heq
      · have := he b
        have hne : b ≠ a := by omega
        simp only [Memory.read, if_true, hne, if_false] at this
        rw [Memory.read_below h.2.2.2 (by omega)] at this
        exact absurd this.symm h'.2.2.1
    subst hab
    have hv : v = w := by simpa [Memory.read] using he a
    subst hv
    have hm : m = m' := by
      refine Memory.ext_from h.2.2.2 h'.2.2.2 fun x => ?_
      by_cases hx : x = a
      · subst hx
        rw [Memory.read_below h.2.2.2 (Nat.lt_succ_self _), Memory.read_below h'.2.2.2 (Nat.lt_succ_self _)]
      · simpa [Memory.read, hx] using he x
    rw [hm]

theorem Memory.ext {m m' : Memory} (h : m.wf = true) (h' : m'.wf = true)
    (he : ∀ a, m.read a = m'.read a) : m = m' :=
  Memory.ext_from h h' he

/-- Past the address space a canonical memory lists nothing. -/
theorem Memory.read_above {lo : Nat} :
    ∀ {m : Memory} {a : Nat}, Memory.wfFrom lo m = true → 256 ≤ a → m.read a = Memory.unlisted
  | [], _, _, _ => rfl
  | (b, v) :: m, a, hm, ha => by
    rw [Memory.wfFrom_cons] at hm
    have hne : a ≠ b := by omega
    simp only [Memory.read, hne, if_false]
    exact Memory.read_above hm.2.2.2 ha

/-- Writing 0x00 to all 256 bytes of a canonical memory gives the zeroed memory, so INIT's and
FINALIZE's wipe is the loop of 41_init.md R130 and 43_finalize_padding.md R176. -/
theorem Memory.writeBytes_zeros {m : Memory} {n : Nat} (h : m.wf = true) (hn : n = 256) :
    m.writeBytes 0 (List.replicate n 0x00) = Memory.zeroed := by
  have hl : 0 + (List.replicate n (0x00 : Byte)).length ≤ 256 := by rw [List.length_replicate]; omega
  refine Memory.ext (Memory.wf_writeBytes h hl) Memory.wf_zeroed fun a => ?_
  rw [Memory.read_writeBytes a h hl, Memory.read_zeroed]
  split
  · rw [List.getD_eq_getElem?_getD, List.getElem?_replicate]
    split <;> rfl
  · rename_i ha
    rw [List.length_replicate] at ha
    exact Memory.read_above h (by omega)

end Sys2Proof.Machine
end

