-- ==== Sys2Proof/Laws/State.lean ====
section
/-! SUPPORT. One lemma per field per update of the state: what each shared operation leaves in each
field. -/

namespace Sys2Proof.Machine

@[simp] theorem respond_phase (status : Status) (data : List Byte) (s : State) : (respond status data s).phase = s.phase := rfl
@[simp] theorem respond_err (status : Status) (data : List Byte) (s : State) : (respond status data s).err = s.err := rfl
@[simp] theorem respond_alg (status : Status) (data : List Byte) (s : State) : (respond status data s).alg = s.alg := rfl
@[simp] theorem respond_h (status : Status) (data : List Byte) (s : State) : (respond status data s).h = s.h := rfl
@[simp] theorem respond_len (status : Status) (data : List Byte) (s : State) : (respond status data s).len = s.len := rfl
@[simp] theorem respond_buf (status : Status) (data : List Byte) (s : State) : (respond status data s).buf = s.buf := rfl
@[simp] theorem respond_buflen (status : Status) (data : List Byte) (s : State) : (respond status data s).buflen = s.buflen := rfl
@[simp] theorem respond_digest (status : Status) (data : List Byte) (s : State) : (respond status data s).digest = s.digest := rfl
@[simp] theorem respond_input (status : Status) (data : List Byte) (s : State) : (respond status data s).input = s.input := rfl
@[simp] theorem respond_rsp (status : Status) (data : List Byte) (s : State) : (respond status data s).rsp = some { status := status, len := BitVec.ofNat 8 data.length, data := data } := rfl
@[simp] theorem respond_resets (status : Status) (data : List Byte) (s : State) : (respond status data s).resets = s.resets := rfl

@[simp] theorem raise_phase (e : ErrorKind) (s : State) : (raise e s).phase = Phase.failed := rfl
@[simp] theorem raise_err (e : ErrorKind) (s : State) : (raise e s).err = if s.phase = .failed then s.err else e.status := rfl
@[simp] theorem raise_alg (e : ErrorKind) (s : State) : (raise e s).alg = s.alg := rfl
@[simp] theorem raise_h (e : ErrorKind) (s : State) : (raise e s).h = s.h := rfl
@[simp] theorem raise_len (e : ErrorKind) (s : State) : (raise e s).len = s.len := rfl
@[simp] theorem raise_buf (e : ErrorKind) (s : State) : (raise e s).buf = s.buf := rfl
@[simp] theorem raise_buflen (e : ErrorKind) (s : State) : (raise e s).buflen = s.buflen := rfl
@[simp] theorem raise_digest (e : ErrorKind) (s : State) : (raise e s).digest = s.digest := rfl
@[simp] theorem raise_input (e : ErrorKind) (s : State) : (raise e s).input = s.input := rfl
@[simp] theorem raise_rsp (e : ErrorKind) (s : State) : (raise e s).rsp = some { status := e.status, len := 0, data := [] } := rfl
@[simp] theorem raise_resets (e : ErrorKind) (s : State) : (raise e s).resets = s.resets := rfl

@[simp] theorem beginContext_phase (alg : Alg) (s : State) : (beginContext alg s).phase = Phase.active := rfl
@[simp] theorem beginContext_err (alg : Alg) (s : State) : (beginContext alg s).err = Status.ok := rfl
@[simp] theorem beginContext_alg (alg : Alg) (s : State) : (beginContext alg s).alg = alg := rfl
@[simp] theorem beginContext_h (alg : Alg) (s : State) : (beginContext alg s).h = ivRegs alg := rfl
@[simp] theorem beginContext_len (alg : Alg) (s : State) : (beginContext alg s).len = 0 := rfl
@[simp] theorem beginContext_buf (alg : Alg) (s : State) : (beginContext alg s).buf = Memory.zeroed := rfl
@[simp] theorem beginContext_buflen (alg : Alg) (s : State) : (beginContext alg s).buflen = 0 := rfl
@[simp] theorem beginContext_digest (alg : Alg) (s : State) : (beginContext alg s).digest = Vector.replicate 64 0x00 := rfl
@[simp] theorem beginContext_input (alg : Alg) (s : State) : (beginContext alg s).input = s.input := rfl
@[simp] theorem beginContext_rsp (alg : Alg) (s : State) : (beginContext alg s).rsp = some { status := .ok, len := 0, data := [] } := rfl
@[simp] theorem beginContext_resets (alg : Alg) (s : State) : (beginContext alg s).resets = s.resets := rfl

@[simp] theorem clearBuffer_phase (s : State) : (clearBuffer s).phase = s.phase := rfl
@[simp] theorem clearBuffer_err (s : State) : (clearBuffer s).err = s.err := rfl
@[simp] theorem clearBuffer_alg (s : State) : (clearBuffer s).alg = s.alg := rfl
@[simp] theorem clearBuffer_h (s : State) : (clearBuffer s).h = s.h := rfl
@[simp] theorem clearBuffer_len (s : State) : (clearBuffer s).len = s.len := rfl
@[simp] theorem clearBuffer_buf (s : State) : (clearBuffer s).buf = s.buf := rfl
@[simp] theorem clearBuffer_buflen (s : State) : (clearBuffer s).buflen = 0 := rfl
@[simp] theorem clearBuffer_digest (s : State) : (clearBuffer s).digest = s.digest := rfl
@[simp] theorem clearBuffer_input (s : State) : (clearBuffer s).input = s.input := rfl
@[simp] theorem clearBuffer_rsp (s : State) : (clearBuffer s).rsp = s.rsp := rfl
@[simp] theorem clearBuffer_resets (s : State) : (clearBuffer s).resets = s.resets := rfl

@[simp] theorem storeDigest_phase (s : State) : (storeDigest s).phase = s.phase := by simp only [storeDigest]
@[simp] theorem storeDigest_err (s : State) : (storeDigest s).err = s.err := by simp only [storeDigest]
@[simp] theorem storeDigest_alg (s : State) : (storeDigest s).alg = s.alg := by simp only [storeDigest]
@[simp] theorem storeDigest_h (s : State) : (storeDigest s).h = s.h := by simp only [storeDigest]
@[simp] theorem storeDigest_len (s : State) : (storeDigest s).len = s.len := by simp only [storeDigest]
@[simp] theorem storeDigest_buf (s : State) : (storeDigest s).buf = s.buf := by simp only [storeDigest]
@[simp] theorem storeDigest_buflen (s : State) : (storeDigest s).buflen = s.buflen := by simp only [storeDigest]
@[simp] theorem storeDigest_digest (s : State) : (storeDigest s).digest = digestRegister (serialise s.alg s.h) := by simp only [storeDigest]
@[simp] theorem storeDigest_input (s : State) : (storeDigest s).input = s.input := by simp only [storeDigest]
@[simp] theorem storeDigest_rsp (s : State) : (storeDigest s).rsp = s.rsp := by simp only [storeDigest]
@[simp] theorem storeDigest_resets (s : State) : (storeDigest s).resets = s.resets := by simp only [storeDigest]

@[simp] theorem wipeBuffer_phase (s : State) : (wipeBuffer s).phase = Phase.done := rfl
@[simp] theorem wipeBuffer_err (s : State) : (wipeBuffer s).err = s.err := rfl
@[simp] theorem wipeBuffer_alg (s : State) : (wipeBuffer s).alg = s.alg := rfl
@[simp] theorem wipeBuffer_h (s : State) : (wipeBuffer s).h = s.h := rfl
@[simp] theorem wipeBuffer_len (s : State) : (wipeBuffer s).len = s.len := rfl
@[simp] theorem wipeBuffer_buf (s : State) : (wipeBuffer s).buf = Memory.zeroed := rfl
@[simp] theorem wipeBuffer_buflen (s : State) : (wipeBuffer s).buflen = 0 := rfl
@[simp] theorem wipeBuffer_digest (s : State) : (wipeBuffer s).digest = s.digest := rfl
@[simp] theorem wipeBuffer_input (s : State) : (wipeBuffer s).input = s.input := rfl
@[simp] theorem wipeBuffer_rsp (s : State) : (wipeBuffer s).rsp = s.rsp := rfl
@[simp] theorem wipeBuffer_resets (s : State) : (wipeBuffer s).resets = s.resets := rfl

@[simp] theorem respondDigest_phase (s : State) : (respondDigest s).phase = s.phase := rfl
@[simp] theorem respondDigest_err (s : State) : (respondDigest s).err = s.err := rfl
@[simp] theorem respondDigest_alg (s : State) : (respondDigest s).alg = s.alg := rfl
@[simp] theorem respondDigest_h (s : State) : (respondDigest s).h = s.h := rfl
@[simp] theorem respondDigest_len (s : State) : (respondDigest s).len = s.len := rfl
@[simp] theorem respondDigest_buf (s : State) : (respondDigest s).buf = s.buf := rfl
@[simp] theorem respondDigest_buflen (s : State) : (respondDigest s).buflen = s.buflen := rfl
@[simp] theorem respondDigest_digest (s : State) : (respondDigest s).digest = s.digest := rfl
@[simp] theorem respondDigest_input (s : State) : (respondDigest s).input = s.input := rfl
@[simp] theorem respondDigest_rsp (s : State) : (respondDigest s).rsp = some { status := .ok, len := BitVec.ofNat 8 (digestPrefix s.digest s.alg.digestBytes).length, data := digestPrefix s.digest s.alg.digestBytes } := rfl
@[simp] theorem respondDigest_resets (s : State) : (respondDigest s).resets = s.resets := rfl

@[simp] theorem resetEvent_phase (s : State) : (resetEvent s).phase = Phase.uninit := by simp only [resetEvent]
@[simp] theorem resetEvent_err (s : State) : (resetEvent s).err = Status.ok := by simp only [resetEvent]
@[simp] theorem resetEvent_input (s : State) : (resetEvent s).input = s.input := by simp only [resetEvent]
@[simp] theorem resetEvent_rsp (s : State) : (resetEvent s).rsp = none := by simp only [resetEvent]
@[simp] theorem resetEvent_resets (s : State) : (resetEvent s).resets = s.resets + 1 := by simp only [resetEvent]

@[simp] theorem prependCommand_phase (w : Word16) (s : State) : (prependCommand w s).phase = s.phase := rfl
@[simp] theorem prependCommand_err (w : Word16) (s : State) : (prependCommand w s).err = s.err := rfl
@[simp] theorem prependCommand_alg (w : Word16) (s : State) : (prependCommand w s).alg = s.alg := rfl
@[simp] theorem prependCommand_h (w : Word16) (s : State) : (prependCommand w s).h = s.h := rfl
@[simp] theorem prependCommand_len (w : Word16) (s : State) : (prependCommand w s).len = s.len := rfl
@[simp] theorem prependCommand_buf (w : Word16) (s : State) : (prependCommand w s).buf = s.buf := rfl
@[simp] theorem prependCommand_buflen (w : Word16) (s : State) : (prependCommand w s).buflen = s.buflen := rfl
@[simp] theorem prependCommand_digest (w : Word16) (s : State) : (prependCommand w s).digest = s.digest := rfl
@[simp] theorem prependCommand_input (w : Word16) (s : State) : (prependCommand w s).input = HostEvent.cmd w :: s.input := rfl
@[simp] theorem prependCommand_rsp (w : Word16) (s : State) : (prependCommand w s).rsp = s.rsp := rfl
@[simp] theorem prependCommand_resets (w : Word16) (s : State) : (prependCommand w s).resets = s.resets := rfl

end Sys2Proof.Machine
end

