-- ==== Sys2Proof/Laws/Ops.lean ====
section
/-! SUPPORT. One specification lemma per shared operation: everything it can do. -/

namespace Sys2Proof.Machine

/-- The sizes of an algorithm come in two kinds (00_scope.md R8). -/
theorem alg_sizes (alg : Alg) :
    (alg.blockSize = 64 ∧ alg.lengthBytes = 8 ∧ alg.counterBits = 64 ∧ alg.wordBits = 32 ∧ alg.unit ≠ .sha512Compress) ∨
    (alg.blockSize = 128 ∧ alg.lengthBytes = 16 ∧ alg.counterBits = 128 ∧ alg.wordBits = 64 ∧ alg.unit = .sha512Compress) := by
  cases alg <;> decide

theorem blockSize_pos (alg : Alg) : 0 < alg.blockSize := by cases alg <;> decide

theorem two_blocks_le (alg : Alg) : 2 * alg.blockSize ≤ 256 := by cases alg <;> decide

@[simp] theorem Alg.ofCode_code (alg : Alg) : Alg.ofCode alg.code = alg := by cases alg <;> decide

@[simp] theorem Alg.code_ofCode (code : BitVec 3) : (Alg.ofCode code).code = code := by
  revert code; decide

theorem length_lengthField (alg : Alg) (len : BitVec 128) : (lengthField alg len).length = alg.lengthBytes := by
  cases alg <;> rfl

/-- One block or two, by the remainder (43_finalize_padding.md R174). -/
theorem paddedLength_cases (alg : Alg) (r : Nat) :
    (r + 1 + alg.lengthBytes ≤ alg.blockSize ∧ paddedLength alg r = alg.blockSize) ∨
    (alg.blockSize < r + 1 + alg.lengthBytes ∧ paddedLength alg r = 2 * alg.blockSize) := by
  unfold paddedLength
  rcases alg_sizes alg with ⟨hB, hL, _⟩ | ⟨hB, hL, _⟩ <;> rw [hB, hL] <;> split <;> omega

theorem paddedLength_le (alg : Alg) (r : Nat) : paddedLength alg r ≤ 256 := by
  have := two_blocks_le alg
  rcases paddedLength_cases alg r with ⟨_, h⟩ | ⟨_, h⟩ <;> omega

theorem toNat_paddedLength (alg : Alg) (r : Nat) :
    (BitVec.ofNat 9 (paddedLength alg r)).toNat = paddedLength alg r := by
  have := paddedLength_le alg r
  rw [BitVec.toNat_ofNat]; omega

/-- A compression of block 0 or 1 is always in range (20_memory.md R53). -/
theorem compressBlock_eq {k : Nat} (hk : k ≤ 1) (s : State) :
    compressBlock k s =
      some { s with h := compress s.alg s.h (s.buf.readBytes (k * s.alg.blockSize) s.alg.blockSize) } := by
  have hB := two_blocks_le s.alg
  have h : k * s.alg.blockSize + s.alg.blockSize ≤ 256 := by
    rcases Nat.le_one_iff_eq_zero_or_eq_one.mp hk with rfl | rfl <;> omega
  simp [compressBlock, memRead_of_le h]

/-- Appending a byte: in range exactly when `BUFLEN` is an address. -/
theorem appendByte_eq (data : Byte) (s : State) :
    appendByte data s =
      if s.buflen.toNat < 256 then
        some { s with buf := s.buf.write s.buflen.toNat data, buflen := s.buflen + 1, len := s.len + 8 }
      else none := by
  unfold appendByte memWrite
  by_cases h : s.buflen.toNat < 256 <;> simp [h, Memory.writeBytes]

/-- Closing a block never stops: the block is compressed when it is full. -/
theorem closeBlock_eq (s : State) :
    closeBlock s = some
      (if s.buflen.toNat = s.alg.blockSize then
        { s with h := compress s.alg s.h (s.buf.readBytes 0 s.alg.blockSize), buflen := 0 }
      else s) := by
  unfold closeBlock blockIsFull
  rw [compressBlock_eq (Nat.zero_le 1)]
  by_cases h : s.buflen.toNat = s.alg.blockSize <;> simp [h, clearBuffer]

/-- The buffer of FINALIZE after its three padding steps (43_finalize_padding.md R171, R172, R173). -/
def paddedBuffer (s : State) : Memory :=
  let r := s.buflen.toNat
  let P := paddedLength s.alg r
  ((s.buf.write r 0x80).writeBytes (r + 1) (List.replicate (P - s.alg.lengthBytes - (r + 1)) 0x00)).writeBytes
    (P - s.alg.lengthBytes) (lengthField s.alg s.len)

/-- The state words after the final compressions of a padded buffer (R175). -/
def paddedCompress (s : State) : Vector Word64 8 :=
  let B := s.alg.blockSize
  let h0 := compress s.alg s.h ((paddedBuffer s).readBytes 0 B)
  if paddedLength s.alg s.buflen.toNat = 2 * B then compress s.alg h0 ((paddedBuffer s).readBytes B B) else h0

theorem pad80_eq {s : State} (h : s.buflen.toNat < 256) :
    pad80 s = some { s with buf := s.buf.write s.buflen.toNat 0x80 } := by
  simp [pad80, memWrite, h, Memory.writeBytes]

theorem padZero_eq {s : State} (h : s.buflen.toNat < 256) :
    padZero s = some { s with
      buf := s.buf.writeBytes (s.buflen.toNat + 1)
        (List.replicate (paddedLength s.alg s.buflen.toNat - s.alg.lengthBytes - (s.buflen.toNat + 1)) 0x00) } := by
  have hP := paddedLength_le s.alg s.buflen.toNat
  have h' : s.buflen.toNat + 1 +
      (List.replicate (paddedLength s.alg s.buflen.toNat - s.alg.lengthBytes - (s.buflen.toNat + 1)) (0x00 : Byte)).length
      ≤ 256 := by rw [List.length_replicate]; omega
  simp only [padZero, memWrite, h', if_true]
  rfl

theorem padLength_eq (s : State) :
    padLength s = some { s with
      buf := s.buf.writeBytes (paddedLength s.alg s.buflen.toNat - s.alg.lengthBytes) (lengthField s.alg s.len)
      buflen := BitVec.ofNat 9 (paddedLength s.alg s.buflen.toNat) } := by
  have hP := paddedLength_le s.alg s.buflen.toNat
  have hc := paddedLength_cases s.alg s.buflen.toNat
  have h' : paddedLength s.alg s.buflen.toNat - s.alg.lengthBytes + (lengthField s.alg s.len).length ≤ 256 := by
    rw [length_lengthField]
    rcases alg_sizes s.alg with ⟨hB, hL, _⟩ | ⟨hB, hL, _⟩ <;> omega
  simp only [padLength, memWrite, h', if_true]
  rfl

/-- The padding and compressions of FINALIZE, in range exactly when `BUFLEN` is an address. -/
theorem padAndCompress_eq (s : State) :
    padAndCompress s =
      if s.buflen.toNat < 256 then
        some { s with
          buf := paddedBuffer s
          buflen := BitVec.ofNat 9 (paddedLength s.alg s.buflen.toNat)
          h := paddedCompress s }
      else none := by
  by_cases h : s.buflen.toNat < 256
  · simp only [padAndCompress, h, if_true, pad80_eq h, Option.bind_eq_bind, Option.bind_some]
    rw [padZero_eq (by exact h)]
    simp only [Option.bind_some, padLength_eq, compressPadded, Option.bind_eq_bind,
      compressBlock_eq (Nat.zero_le 1), hasSecondBlock, toNat_paddedLength, paddedCompress]
    by_cases hP : paddedLength s.alg s.buflen.toNat = 2 * s.alg.blockSize
    · simp [hP, compressBlock_eq (Nat.le_refl 1), paddedBuffer]
    · simp [hP, paddedBuffer]
  · simp [padAndCompress, h, pad80, memWrite]

end Sys2Proof.Machine
end

