-- ==== Sys2Proof/Laws/Digest.lean ====
section
/-! SUPPORT. The digest, its register and its characters: lengths, and reading back. -/

namespace Sys2Proof.Machine

theorem digestBytes_le (alg : Alg) : alg.digestBytes ≤ 64 := by cases alg <;> decide

/-- `Serialise` gives exactly `D` bytes (48_digest_format.md R320). -/
@[simp] theorem length_serialise (alg : Alg) (h : Vector Word64 8) : (serialise alg h).length = alg.digestBytes := by
  obtain ⟨⟨l⟩, hl⟩ := h
  match l, hl with
  | [a, b, c, d, e, f, g, k], _ => cases alg <;> rfl

@[simp] theorem length_digestPrefix (digest : Vector Byte 64) (alg : Alg) :
    (digestPrefix digest alg.digestBytes).length = alg.digestBytes := by
  have := digestBytes_le alg
  simp [digestPrefix]; omega

/-- The register gives back the bytes stored in it. -/
theorem digestPrefix_digestRegister {bytes : List Byte} {n : Nat} (h : bytes.length = n) (hn : n ≤ 64) :
    digestPrefix (digestRegister bytes) n = bytes := by
  subst h
  apply List.ext_getElem
  · simp [digestPrefix]; omega
  · intro i _ h2
    simp [digestPrefix, digestRegister, h2]

/-- Two characters per byte (48_digest_format.md R324). -/
@[simp] theorem length_toHexString (bytes : List Byte) : (toHexString bytes).length = 2 * bytes.length := by
  induction bytes with
  | nil => rfl
  | cons b bytes ih => simp [toHexString, hexByte] at *; omega

end Sys2Proof.Machine
end

