-- ==== Sys2Proof/Laws/Exec.lean ====
section
/-! SUPPORT. What each command can do, case by case, and that a command leaves the host's events
alone. -/

namespace Sys2Proof.Machine

/-- The state an UPDATE with a byte in range leaves, less its response. -/
def updated (data : Byte) (s : State) : State :=
  let t := { s with buf := s.buf.write s.buflen.toNat data, buflen := s.buflen + 1, len := s.len + 8 }
  if t.buflen.toNat = t.alg.blockSize then
    { t with h := compress t.alg t.h (t.buf.readBytes 0 t.alg.blockSize), buflen := 0 }
  else t

/-- UPDATE, whole. -/
theorem execUpdate_eq (data : Byte) (s : State) :
    execUpdate data s =
      if s.phase ≠ .active then .next (raise .invalidState s)
      else if lengthWouldOverflow s.alg s.len then .next (raise .messageTooLarge s)
      else if s.buflen.toNat < 256 then .next (respond .ok [] (updated data s))
      else .fault .bufferRange := by
  unfold execUpdate
  split
  · rfl
  · split
    · rfl
    · rw [appendByte_eq]
      split
      · simp only [Option.bind_some, closeBlock_eq, Option.map_some, orBufferFault]
        rfl
      · rfl

/-- What an UPDATE that answers a next state has done. -/
theorem execUpdate_cases {data : Byte} {s t : State} (h : execUpdate data s = .next t) :
    (s.phase ≠ .active ∧ t = raise .invalidState s) ∨
    (s.phase = .active ∧ lengthWouldOverflow s.alg s.len = true ∧ t = raise .messageTooLarge s) ∨
    (s.phase = .active ∧ lengthWouldOverflow s.alg s.len = false ∧ s.buflen.toNat < 256 ∧
      t = respond .ok [] (updated data s)) := by
  rw [execUpdate_eq] at h
  split at h
  · rename_i hp
    exact .inl ⟨hp, by simpa using h.symm⟩
  · rename_i hp
    have hp : s.phase = .active := by simpa using hp
    split at h
    · rename_i ho
      exact .inr (.inl ⟨hp, ho, by simpa using h.symm⟩)
    · rename_i ho
      split at h
      · rename_i hb
        exact .inr (.inr ⟨hp, by simpa using ho, hb, by simpa using h.symm⟩)
      · cases h

/-- The state a FINALIZE that runs leaves. -/
def finalized (s : State) : State :=
  respondDigest (wipeBuffer (storeDigest { s with
    buf := paddedBuffer s
    buflen := BitVec.ofNat 9 (paddedLength s.alg s.buflen.toNat)
    h := paddedCompress s }))

/-- FINALIZE, whole. -/
theorem execFinalize_eq (s : State) :
    execFinalize s =
      if s.phase ≠ .active then .next (raise .invalidState s)
      else if s.buflen.toNat < 256 then .next (finalized s)
      else .fault .bufferRange := by
  unfold execFinalize
  split
  · rfl
  · rw [padAndCompress_eq]
    split <;> rfl

/-- What a FINALIZE that answers a next state has done. -/
theorem execFinalize_cases {s t : State} (h : execFinalize s = .next t) :
    (s.phase ≠ .active ∧ t = raise .invalidState s) ∨
    (s.phase = .active ∧ s.buflen.toNat < 256 ∧ t = finalized s) := by
  rw [execFinalize_eq] at h
  split at h
  · rename_i hp
    exact .inl ⟨hp, by simpa using h.symm⟩
  · rename_i hp
    have hp : s.phase = .active := by simpa using hp
    split at h
    · rename_i hb
      exact .inr ⟨hp, hb, by simpa using h.symm⟩
    · cases h

/-- What TOHEX has done: it always answers a next state. -/
theorem execToHex_cases {s t : State} (h : execToHex s = .next t) :
    (s.phase ≠ .done ∧ t = raise .invalidState s) ∨
    (s.phase = .done ∧ t = respond .ok (toHexString (digestPrefix s.digest s.alg.digestBytes)) s) := by
  unfold execToHex at h
  split at h
  · rename_i hp
    exact .inl ⟨hp, by simpa using h.symm⟩
  · rename_i hp
    exact .inr ⟨by simpa using hp, by simpa using h.symm⟩

/-- What any command that answers a next state has done. -/
theorem exec_cases {i : Instr} {s t : State} (h : exec i s = .next t) :
    (∃ alg, i = initCommandOf alg ∧ t = beginContext alg s) ∨
    (∃ selector, i = .initUndef selector ∧ t = raise .invalidAlgorithmSelector s) ∨
    (∃ data, i = .update data ∧ execUpdate data s = .next t) ∨
    (i = .finalize ∧ execFinalize s = .next t) ∨
    (i = .toHex ∧ execToHex s = .next t) := by
  cases i with
  | initUndef selector => exact .inr (.inl ⟨selector, rfl, by simpa [exec, execInitUndef] using h.symm⟩)
  | update data => exact .inr (.inr (.inl ⟨data, rfl, h⟩))
  | finalize => exact .inr (.inr (.inr (.inl ⟨rfl, h⟩)))
  | toHex => exact .inr (.inr (.inr (.inr ⟨rfl, h⟩)))
  | initMd5 => exact .inl ⟨.md5, rfl, by simpa [exec, execInitMd5] using h.symm⟩
  | initSha1 => exact .inl ⟨.sha1, rfl, by simpa [exec, execInitSha1] using h.symm⟩
  | initSha224 => exact .inl ⟨.sha224, rfl, by simpa [exec, execInitSha224] using h.symm⟩
  | initSha256 => exact .inl ⟨.sha256, rfl, by simpa [exec, execInitSha256] using h.symm⟩
  | initSha384 => exact .inl ⟨.sha384, rfl, by simpa [exec, execInitSha384] using h.symm⟩
  | initSha512 => exact .inl ⟨.sha512, rfl, by simpa [exec, execInitSha512] using h.symm⟩
  | initSha512_224 => exact .inl ⟨.sha512_224, rfl, by simpa [exec, execInitSha512_224] using h.symm⟩
  | initSha512_256 => exact .inl ⟨.sha512_256, rfl, by simpa [exec, execInitSha512_256] using h.symm⟩

end Sys2Proof.Machine
end

