-- ==== Sys2Proof/Laws/Command.lean ====
section
/-! SUPPORT. What one command word can do, all its cases at once, and the fields after an UPDATE or a
FINALIZE that runs. -/

namespace Sys2Proof.Machine

/-- The fields that an UPDATE leaves alone, and `LEN`. -/
theorem updated_frame (data : Byte) (s : State) :
    (updated data s).phase = s.phase ∧ (updated data s).err = s.err ∧ (updated data s).alg = s.alg ∧
    (updated data s).digest = s.digest ∧ (updated data s).input = s.input ∧
    (updated data s).resets = s.resets ∧ (updated data s).len = s.len + 8 ∧
    (updated data s).buf = s.buf.write s.buflen.toNat data := by
  unfold updated
  dsimp only
  split <;> simp

@[simp] theorem updated_phase (data : Byte) (s : State) : (updated data s).phase = s.phase := (updated_frame data s).1
@[simp] theorem updated_err (data : Byte) (s : State) : (updated data s).err = s.err := (updated_frame data s).2.1
@[simp] theorem updated_alg (data : Byte) (s : State) : (updated data s).alg = s.alg := (updated_frame data s).2.2.1
@[simp] theorem updated_digest (data : Byte) (s : State) : (updated data s).digest = s.digest := (updated_frame data s).2.2.2.1
@[simp] theorem updated_input (data : Byte) (s : State) : (updated data s).input = s.input := (updated_frame data s).2.2.2.2.1
@[simp] theorem updated_resets (data : Byte) (s : State) : (updated data s).resets = s.resets := (updated_frame data s).2.2.2.2.2.1
@[simp] theorem updated_len (data : Byte) (s : State) : (updated data s).len = s.len + 8 := (updated_frame data s).2.2.2.2.2.2.1
@[simp] theorem updated_buf (data : Byte) (s : State) : (updated data s).buf = s.buf.write s.buflen.toNat data := (updated_frame data s).2.2.2.2.2.2.2

@[simp] theorem finalized_phase (s : State) : (finalized s).phase = .done := by simp [finalized]
@[simp] theorem finalized_err (s : State) : (finalized s).err = s.err := by simp [finalized]
@[simp] theorem finalized_alg (s : State) : (finalized s).alg = s.alg := by simp [finalized]
@[simp] theorem finalized_h (s : State) : (finalized s).h = paddedCompress s := by simp [finalized]
@[simp] theorem finalized_len (s : State) : (finalized s).len = s.len := by simp [finalized]
@[simp] theorem finalized_buf (s : State) : (finalized s).buf = Memory.zeroed := by simp [finalized]
@[simp] theorem finalized_buflen (s : State) : (finalized s).buflen = 0 := by simp [finalized]
@[simp] theorem finalized_digest (s : State) :
    (finalized s).digest = digestRegister (serialise s.alg (paddedCompress s)) := by simp [finalized]
@[simp] theorem finalized_input (s : State) : (finalized s).input = s.input := by simp [finalized]
@[simp] theorem finalized_resets (s : State) : (finalized s).resets = s.resets := by simp [finalized]
@[simp] theorem finalized_rsp (s : State) : (finalized s).rsp =
    some { status := .ok, len := BitVec.ofNat 8 s.alg.digestBytes, data := serialise s.alg (paddedCompress s) } := by
  have hl := length_serialise s.alg (paddedCompress s)
  simp [finalized, digestPrefix_digestRegister hl (digestBytes_le s.alg)]

/-- Everything a command word that answers a next state can have done, in the order of the checks of
60_exceptions.md R355. -/
theorem runCommand_cases {w : Word16} {s t : State} (h : runCommand w s = .next t) :
    (∃ e, decode w = .error e ∧ t = raise .illegalCommand s) ∨
    (∃ alg, decode w = .ok (initCommandOf alg) ∧ t = beginContext alg s) ∨
    (∃ selector, decode w = .ok (.initUndef selector) ∧ t = raise .invalidAlgorithmSelector s) ∨
    (∃ data, decode w = .ok (.update data) ∧ s.phase ≠ .active ∧ t = raise .invalidState s) ∨
    (∃ data, decode w = .ok (.update data) ∧ s.phase = .active ∧
      lengthWouldOverflow s.alg s.len = true ∧ t = raise .messageTooLarge s) ∨
    (∃ data, decode w = .ok (.update data) ∧ s.phase = .active ∧
      lengthWouldOverflow s.alg s.len = false ∧ s.buflen.toNat < 256 ∧ t = respond .ok [] (updated data s)) ∨
    (decode w = .ok .finalize ∧ s.phase ≠ .active ∧ t = raise .invalidState s) ∨
    (decode w = .ok .finalize ∧ s.phase = .active ∧ s.buflen.toNat < 256 ∧ t = finalized s) ∨
    (decode w = .ok .toHex ∧ s.phase ≠ .done ∧ t = raise .invalidState s) ∨
    (decode w = .ok .toHex ∧ s.phase = .done ∧
      t = respond .ok (toHexString (digestPrefix s.digest s.alg.digestBytes)) s) := by
  unfold runCommand at h
  split at h
  · rename_i i hi
    rcases exec_cases h with ⟨alg, rfl, rfl⟩ | ⟨selector, rfl, rfl⟩ | ⟨data, rfl, h⟩ | ⟨rfl, h⟩ | ⟨rfl, h⟩
    · exact .inr (.inl ⟨alg, hi, rfl⟩)
    · exact .inr (.inr (.inl ⟨selector, hi, rfl⟩))
    · rcases execUpdate_cases h with ⟨h1, rfl⟩ | ⟨h1, h2, rfl⟩ | ⟨h1, h2, h3, rfl⟩
      · exact .inr (.inr (.inr (.inl ⟨data, hi, h1, rfl⟩)))
      · exact .inr (.inr (.inr (.inr (.inl ⟨data, hi, h1, h2, rfl⟩))))
      · exact .inr (.inr (.inr (.inr (.inr (.inl ⟨data, hi, h1, h2, h3, rfl⟩)))))
    · rcases execFinalize_cases h with ⟨h1, rfl⟩ | ⟨h1, h2, rfl⟩
      · exact .inr (.inr (.inr (.inr (.inr (.inr (.inl ⟨hi, h1, rfl⟩))))))
      · exact .inr (.inr (.inr (.inr (.inr (.inr (.inr (.inl ⟨hi, h1, h2, rfl⟩)))))))
    · rcases execToHex_cases h with ⟨h1, rfl⟩ | ⟨h1, rfl⟩
      · exact .inr (.inr (.inr (.inr (.inr (.inr (.inr (.inr (.inl ⟨hi, h1, rfl⟩))))))))
      · exact .inr (.inr (.inr (.inr (.inr (.inr (.inr (.inr (.inr ⟨hi, h1, rfl⟩))))))))
  · rename_i e he
    exact .inl ⟨e, he, by simpa using h.symm⟩

end Sys2Proof.Machine
end

