-- ==== Sys2Proof/Laws/OneShot.lean ====
section
/-! SUPPORT. Folding blocks into state words: one block more, the same blocks, and two runs in a row. -/

namespace Sys2Proof.Machine

@[simp] theorem hashBlocks_zero (alg : Alg) (bytes : List Byte) (h : Vector Word64 8) :
    hashBlocks alg bytes h 0 = h := by simp [hashBlocks]

theorem hashBlocks_succ (alg : Alg) (bytes : List Byte) (h : Vector Word64 8) (k : Nat) :
    hashBlocks alg bytes h (k + 1) = compress alg (hashBlocks alg bytes h k) (blockOf alg bytes k) := by
  simp [hashBlocks, List.range_succ]

theorem hashBlocks_congr {alg : Alg} {bytes bytes' : List Byte} {h : Vector Word64 8} (k : Nat)
    (hj : ∀ j < k, blockOf alg bytes j = blockOf alg bytes' j) :
    hashBlocks alg bytes h k = hashBlocks alg bytes' h k := by
  induction k with
  | zero => simp
  | succ k ih => rw [hashBlocks_succ, hashBlocks_succ, ih fun j h => hj j (by omega), hj k (by omega)]

theorem hashBlocks_add (alg : Alg) (bytes : List Byte) (h : Vector Word64 8) (k l : Nat) :
    hashBlocks alg bytes h (k + l) =
      hashBlocks alg (bytes.drop (k * alg.blockSize)) (hashBlocks alg bytes h k) l := by
  induction l with
  | zero => simp
  | succ l ih =>
    have e : blockOf alg (bytes.drop (k * alg.blockSize)) l = blockOf alg bytes (k + l) := by
      simp [blockOf, Nat.add_mul]
    rw [← Nat.add_assoc, hashBlocks_succ, hashBlocks_succ, ih, e]

/-- A block that lies within the first bytes does not see what is appended. -/
theorem blockOf_append {alg : Alg} {bytes : List Byte} (more : List Byte) {k : Nat}
    (h : (k + 1) * alg.blockSize ≤ bytes.length) : blockOf alg (bytes ++ more) k = blockOf alg bytes k := by
  have : (k + 1) * alg.blockSize = k * alg.blockSize + alg.blockSize := by ring
  simp only [blockOf]
  rw [List.drop_append_of_le_length (by omega), List.take_append_of_le_length (by simp; omega)]

end Sys2Proof.Machine
end

