-- ==== Sys2Proof/Laws/PerInstr.lean ====
section
/-! SUPPORT. Statements about every command as syntax. -/

namespace Sys2Proof.Laws

namespace EncodedFields

/-- The fields of a command's word by its format (30_encoding.md R82, R88): `OP` is 1 to 4, a format-A
word has no data, a format-D word no selector, and a format-Z word neither. -/
def Statement (i : Instr) : Prop :=
  match i with
  | .update data => opField (encode i) = 2 ∧ algField (encode i) = 0 ∧ dataField (encode i) = data
  | .finalize => opField (encode i) = 3 ∧ algField (encode i) = 0 ∧ dataField (encode i) = 0
  | .toHex => opField (encode i) = 4 ∧ algField (encode i) = 0 ∧ dataField (encode i) = 0
  | .initUndef selector => opField (encode i) = 1 ∧ algField (encode i) = selector ∧ dataField (encode i) = 0
  | i => opField (encode i) = 1 ∧ (algField (encode i)).toNat < 8 ∧ dataField (encode i) = 0

theorem initMd5 : Statement .initMd5 := by unfold Statement; decide
theorem initSha1 : Statement .initSha1 := by unfold Statement; decide
theorem initSha224 : Statement .initSha224 := by unfold Statement; decide
theorem initSha256 : Statement .initSha256 := by unfold Statement; decide
theorem initSha384 : Statement .initSha384 := by unfold Statement; decide
theorem initSha512 : Statement .initSha512 := by unfold Statement; decide
theorem initSha512_224 : Statement .initSha512_224 := by unfold Statement; decide
theorem initSha512_256 : Statement .initSha512_256 := by unfold Statement; decide
theorem initUndef (selector : BitVec 4) : Statement (.initUndef selector) := by
  unfold Statement; revert selector; decide
theorem update (data : Byte) : Statement (.update data) := by
  unfold Statement; revert data; decide +kernel
theorem finalize : Statement .finalize := by unfold Statement; decide
theorem toHex : Statement .toHex := by unfold Statement; decide

end EncodedFields

end Sys2Proof.Laws
end

