-- ==== Sys2Proof/Tests/Slice0.lean ====
section
/-! SUPPORT. The model's own tests. Expected values are the spec's: the words of 30_encoding.md R88, the
worked examples of 40 to 48, and the vectors of 95_test_vectors.md, cited at each test. The witness_
theorems meet the hypotheses of the statement they name, at boundary values. -/

open Sys2Proof Sys2Proof.Machine

namespace Sys2Proof.Tests

set_option Elab.async false

/-- The next state of an outcome, if it is one. -/
def nextOf : Host.Outcome State Fault Refusal → Option State
  | .next s => some s
  | .fault _ => none
  | .refused _ => none

/-- An ACTIVE context with the IV of its algorithm, `LEN`, `BUFLEN` and a buffer. -/
def activeAt (alg : Alg) (len buflen : Nat) (buf : Memory) : State :=
  { State.reset with
    phase := .active, alg := alg, h := ivRegs alg
    len := BitVec.ofNat 128 len, buflen := BitVec.ofNat 9 buflen, buf := buf }

/-- A FAILED context. -/
def failedWith (err : Status) : State := { State.reset with phase := .failed, err := err }

/-- The buffer of `n` bytes 0x61 from address 0. -/
def letters (n : Nat) : Memory := (List.range n).map fun i => (i, 0x61)

/-- After `INIT MD5; FINALIZE`: the registers of program P1 (95_test_vectors.md section 3). -/
def doneMd5 : State :=
  { State.reset with
    phase := .done, alg := .md5
    h := #v[0xd98c1dd4, 0x04b2008f, 0x980980e9, 0x7e42f8ec, 0, 0, 0, 0]
    digest := digestRegister
      [0xd4, 0x1d, 0x8c, 0xd9, 0x8f, 0x00, 0xb2, 0x04, 0xe9, 0x80, 0x09, 0x98, 0xec, 0xf8, 0x42, 0x7e] }

/-- The response of a command that fails. -/
def errorResponse (status : Status) : Response := { status := status, len := 0, data := [] }

/-! ## WellFormed: the one check, and an ill-formed term it refuses -/

theorem test_initUndef_needs_undefined_selector :
    (Instr.initUndef 7).wf = false ∧ (Instr.initUndef 0).wf = false ∧
    (Instr.initUndef 8).wf = true ∧ (Instr.initUndef 15).wf = true := by decide

/-! ## Decode: words written bit by bit, OP ‖ ALG ‖ DATA (30_encoding.md R81, R88) -/

theorem test_decode_init_32_bit_algorithms :
    decode 0b0001_0000_00000000 = .ok .initMd5 ∧ decode 0b0001_0001_00000000 = .ok .initSha1 ∧
    decode 0b0001_0010_00000000 = .ok .initSha224 ∧ decode 0b0001_0011_00000000 = .ok .initSha256 := by decide

theorem test_decode_init_64_bit_algorithms :
    decode 0b0001_0100_00000000 = .ok .initSha384 ∧ decode 0b0001_0101_00000000 = .ok .initSha512 ∧
    decode 0b0001_0110_00000000 = .ok .initSha512_224 ∧ decode 0b0001_0111_00000000 = .ok .initSha512_256 := by decide

theorem test_decode_undefined_selectors :
    decode 0b0001_1000_00000000 = .ok (.initUndef 8) ∧ decode 0b0001_1001_00000000 = .ok (.initUndef 9) ∧
    decode 0b0001_1111_00000000 = .ok (.initUndef 15) := by decide

theorem test_decode_update :
    decode 0b0010_0000_00000000 = .ok (.update 0x00) ∧ decode 0b0010_0000_01100001 = .ok (.update 0x61) ∧
    decode 0b0010_0000_11111111 = .ok (.update 0xff) := by decide

theorem test_decode_finalize_toHex :
    decode 0b0011_0000_00000000 = .ok .finalize ∧ decode 0b0100_0000_00000000 = .ok .toHex := by decide

/-- The illegal words of 95_test_vectors.md section 2.1, by the case of 30_encoding.md R87. -/
theorem test_decode_illegal :
    decode 0x0000 = .error .reservedOp ∧ decode 0x5000 = .error .reservedOp ∧ decode 0xffff = .error .reservedOp ∧
    decode 0x1301 = .error .initData ∧ decode 0x1801 = .error .initData ∧ decode 0x2161 = .error .updateAlg ∧
    decode 0x3001 = .error .formatZField ∧ decode 0x3100 = .error .formatZField ∧
    decode 0x4010 = .error .formatZField := by decide

/-- The words of program P2's listing. -/
theorem test_assemble_hash_abc :
    assemble [.hash .sha256 ['a', 'b', 'c']] = [0x1300, 0x2061, 0x2062, 0x2063, 0x3000, 0x4000] := by decide +kernel

theorem test_decodeTableWord :
    decodeTableWord 16 0x1300 = some .initSha256 ∧ decodeTableWord 16 0x2061 = some (.update 0x61) ∧
    decodeTableWord 16 0x3001 = none := by decide

/-! ## One command each (95_test_vectors.md sections 2.3, 2.4, 2.9) -/

theorem test_initMd5 : (nextOf (step (State.reset.withFetchWord 16 0x1000))).map (fun t => (t.phase, t.h[3], t.h[4])) =
    some (.active, 0x10325476, 0) := by decide +kernel

theorem test_initSha1 : (nextOf (step ((failedWith .invalidState).withFetchWord 16 0x1100))).map
    (fun t => (t.phase, t.err, t.h[4], t.h[5])) = some (.active, .ok, 0xc3d2e1f0, 0) := by decide +kernel

theorem test_initSha224 : (nextOf (step (doneMd5.withFetchWord 16 0x1200))).map
    (fun t => (t.phase, t.alg, t.h[0], t.digest[0])) = some (.active, .sha224, 0xc1059ed8, 0) := by decide +kernel

theorem test_initSha256 : (nextOf (step ((activeAt .md5 24 3 (letters 3)).withFetchWord 16 0x1300))).map
    (fun t => (t.h[7], t.len, t.buflen, t.buf)) = some (0x5be0cd19, 0, 0, []) := by decide +kernel

theorem test_initSha384 : (nextOf (exec .initSha384 State.reset)).map (fun t => (t.alg, t.h[0])) =
    some (.sha384, 0xcbbb9d5dc1059ed8) := by decide +kernel

theorem test_initSha512 : (nextOf (exec .initSha512 State.reset)).map (fun t => (t.alg, t.h[0])) =
    some (.sha512, 0x6a09e667f3bcc908) := by decide +kernel

theorem test_initSha512_224 : (nextOf (exec .initSha512_224 State.reset)).map (fun t => (t.alg, t.h[0])) =
    some (.sha512_224, 0x8c3d37c819544da2) := by decide +kernel

theorem test_initSha512_256 : (nextOf (exec .initSha512_256 State.reset)).map (fun t => (t.alg, t.h[0])) =
    some (.sha512_256, 0x22312194fc2bf72c) := by decide +kernel

/-- `INIT 9` in ACTIVE: the context is lost. -/
theorem test_initUndef : (nextOf (step ((activeAt .md5 8 1 (letters 1)).withFetchWord 16 0x1900))).map
    (fun t => (t.phase, t.err, t.rsp)) =
    some (.failed, .invalidAlgorithmSelector, some (errorResponse .invalidAlgorithmSelector)) := by decide

/-- `INIT SHA256; UPDATE 61`. -/
theorem test_update_appends : (nextOf (step ((activeAt .sha256 0 0 []).withFetchWord 16 0x2061))).map
    (fun t => (t.buf, t.buflen, t.len, t.h == ivRegs .sha256)) = some ([(0, 0x61)], 1, 8, true) := by decide +kernel

/-- `INIT MD5; UPDATEN 63, 'a'`, then `UPDATE 61`: the block boundary. -/
theorem test_update_fills_block : (nextOf (exec (.update 0x61) (activeAt .md5 504 63 (letters 63)))).map
    (fun t => (t.h, t.buflen, t.len, t.buf)) =
    some (#v[0x89d4ff56, 0x125cd962, 0x69cade33, 0x0033e325, 0, 0, 0, 0], 0, 512, letters 64) := by decide +kernel

/-- Program P1's FINALIZE. -/
theorem test_finalize_empty_md5 : (nextOf (exec .finalize (activeAt .md5 0 0 []))).map
    (fun t => (t.h, t.digest, t.rsp.map Response.len, t.phase)) =
    some (doneMd5.h, doneMd5.digest, some 0x10, .done) := by decide +kernel

/-- Program P3's FINALIZE: the two-block padding path. -/
theorem test_finalize_two_blocks_sha1 : (nextOf (exec .finalize (activeAt .sha1 448 56 (letters 56)))).map
    (fun t => (t.h, t.len, t.buflen, t.buf)) =
    some (#v[0xc2db330f, 0x6083854c, 0x99d4b5bf, 0xb6e8f29f, 0x201be699, 0, 0, 0], 0x1c0, 0, []) := by decide +kernel

/-- Program P1's TOHEX: the characters of d41d8cd98f00b204e9800998ecf8427e. -/
theorem test_toHex_md5_empty : (nextOf (exec .toHex doneMd5)).map (fun t => (t.phase, t.rsp)) =
    some (.done, some { status := .ok, len := 0x20, data := "d41d8cd98f00b204e9800998ecf8427e".toList.map asciiByte }) := by
  decide +kernel

theorem test_toHex_in_active_fails : (nextOf (exec .toHex (activeAt .md5 0 0 []))).map (fun t => (t.phase, t.err)) =
    some (.failed, .invalidState) := by decide

/-! ## Length overflow (95_test_vectors.md section 2.4) -/

theorem test_last_byte_fits : (nextOf (exec (.update 0xaa) (activeAt .sha256 0xfffffffffffffff0 62 []))).map
    (fun t => (t.phase, t.len, t.buflen, t.buf)) = some (.active, 0xfffffffffffffff8, 63, [(62, 0xaa)]) := by decide +kernel

theorem test_next_byte_overflows : (nextOf (exec (.update 0xbb) (activeAt .sha512 (2 ^ 128 - 8) 127 []))).map
    (fun t => (t.err, t.len, t.buflen, t.buf)) =
    some (.messageTooLarge, 0xfffffffffffffffffffffffffffffff8, 127, []) := by decide +kernel

/-! ## Bit utilities (95_test_vectors.md section 2.2) -/

theorem test_rotates :
    rotl (0x12345678 : Word32) 7 = 0x1a2b3c09 ∧ rotl (0xefcdab89 : Word32) 30 = 0x7bf36ae2 ∧
    rotr (0x12345678 : Word32) 7 = 0xf02468ac ∧ rotr (0x0123456789abcdef : Word64) 28 = 0x9abcdef012345678 ∧
    shr (0x12345678 : Word32) 3 = 0x02468acf ∧ shr (0x8000000000000000 : Word64) 7 = 0x0100000000000000 := by decide

theorem test_codecs :
    mirror32 0x01020304 = 0x04030201 ∧ le32dec 0x61 0x62 0x63 0x80 = 0x80636261 ∧ be32dec 0x61 0x62 0x63 0x80 = 0x61626380 ∧
    be64dec 0x61 0x62 0x63 0x80 0 0 0 0 = 0x6162638000000000 ∧ le32enc 0xd98c1dd4 = [0xd4, 0x1d, 0x8c, 0xd9] ∧
    be32enc 0xa9993e36 = [0xa9, 0x99, 0x3e, 0x36] ∧ le64enc 0x18 = [0x18, 0, 0, 0, 0, 0, 0, 0] ∧
    be64enc 0x18 = [0, 0, 0, 0, 0, 0, 0, 0x18] := by decide

/-- 40_bit_utilities.md R116, R118. -/
theorem test_mirror_16_64 :
    mirror16 0x0102 = 0x0201 ∧ mirror64 0x0102030405060708 = 0x0807060504030201 ∧
    be128enc 24 = List.replicate 15 0x00 ++ [0x18] := by decide

/-! ## The functions of the units (95_test_vectors.md section 2.5) -/

theorem test_round_functions :
    md5F 0xefcdab89 0x98badcfe 0x10325476 = 0x98badcfe ∧ md5FunG 0xefcdab89 0x98badcfe 0x10325476 = 0x88888888 ∧
    md5H 0xefcdab89 0x98badcfe 0x10325476 = 0x67452301 ∧ md5I 0xefcdab89 0x98badcfe 0x10325476 = 0x77777777 ∧
    sha1Ch 0xefcdab89 0x98badcfe 0x10325476 = 0x98badcfe ∧ sha1Parity 0xefcdab89 0x98badcfe 0x10325476 = 0x67452301 ∧
    sha1Maj 0xefcdab89 0x98badcfe 0x10325476 = 0x98badcfe := by decide

theorem test_sha2_functions :
    sha256BigSigma0 0x6a09e667 = 0xce20b47e ∧ sha256BigSigma1 0x510e527f = 0x3587272b ∧
    sha256SmallSigma0 0x61626380 = 0x940e90ef ∧ sha256SmallSigma1 0x61626380 = 0x7da86405 ∧
    sha2Ch (0x510e527f : Word32) 0x9b05688c 0x1f83d9ab = 0x1f85c98c ∧
    sha2Maj (0x6a09e667 : Word32) 0xbb67ae85 0x3c6ef372 = 0x3a6fe667 ∧
    sha512BigSigma0 0x6a09e667f3bcc908 = 0x08c4db56aac80c2a ∧ sha512BigSigma1 0x510e527fade682d1 = 0x9427e33bb5c9dbca ∧
    sha512SmallSigma0 0x18 = 0x180000000000000c ∧ sha512SmallSigma1 0x18 = 0x00030000000000c0 := by decide

/-- The "abc" block, little-endian for MD5 (44_md5_compress.md R201). -/
def abcMd5 : List Byte := paddedMessage .md5 [0x61, 0x62, 0x63]

/-- The worked examples of 44_md5_compress.md R205 to R208: steps 0, 16, 32, 48 of the "abc" block. -/
theorem test_md5_steps :
    md5StepFF (md5Load abcMd5) 0 ⟨0x67452301, 0xefcdab89, 0x98badcfe, 0x10325476⟩ =
      ⟨0x10325476, 0xd6d117b4, 0xefcdab89, 0x98badcfe⟩ ∧
    md5StepGG (md5Load abcMd5) 16 ⟨0xdda9b9a6, 0x72aff2e0, 0xe396856b, 0xa1051895⟩ =
      ⟨0xa1051895, 0x3e9e9126, 0x72aff2e0, 0xe396856b⟩ ∧
    md5StepHH (md5Load abcMd5) 32 ⟨0x790a77fb, 0x726342d3, 0xa62884aa, 0x9f47e4f8⟩ =
      ⟨0x9f47e4f8, 0xb3707ebf, 0x726342d3, 0xa62884aa⟩ ∧
    md5StepII (md5Load abcMd5) 48 ⟨0x7f2e507b, 0x7beb9700, 0x8fae6399, 0x99d9679d⟩ =
      ⟨0x99d9679d, 0x7b201df8, 0x7beb9700, 0x8fae6399⟩ := by decide +kernel

/-- The worked examples of 45_sha1_compress.md R236 to R239: rounds 0, 20, 40, 60 of the "abc" block. -/
theorem test_sha1_rounds :
    let W := sha1Schedule (paddedMessage .sha1 [0x61, 0x62, 0x63])
    sha1Round W ⟨0x67452301, 0xefcdab89, 0x98badcfe, 0x10325476, 0xc3d2e1f0⟩ 0 =
      ⟨0x0116fc33, 0x67452301, 0x7bf36ae2, 0x98badcfe, 0x10325476⟩ ∧
    sha1Round W ⟨0xfd9e1d7d, 0xdc64901d, 0x20aa99ca, 0xd3a49608, 0xc82f758b⟩ 20 =
      ⟨0x1a37b0ca, 0xfd9e1d7d, 0x77192407, 0x20aa99ca, 0xd3a49608⟩ ∧
    sha1Round W ⟨0x32de1cba, 0x4c986405, 0xf718e5cf, 0x03d447f6, 0xf72eec32⟩ 40 =
      ⟨0xfc87dedf, 0x32de1cba, 0x53261901, 0xf718e5cf, 0x03d447f6⟩ ∧
    sha1Round W ⟨0x3f52de5a, 0x09d785fd, 0x3498bfd4, 0xf211824f, 0xd79915ab⟩ 60 =
      ⟨0xd756c147, 0x3f52de5a, 0x4275e17f, 0x3498bfd4, 0xf211824f⟩ := by decide +kernel

/-- The worked examples of 46_sha256_compress.md R269 and 47_sha512_compress.md R299: round 0 of "abc". -/
theorem test_sha2_rounds :
    sha256RoundWith 0 0x61626380 (sha256In (ivRegs .sha256)) =
      ⟨0x5d6aebcd, 0x6a09e667, 0xbb67ae85, 0x3c6ef372, 0xfa2a4622, 0x510e527f, 0x9b05688c, 0x1f83d9ab⟩ ∧
    sha512RoundWith 0 0x6162638000000000 (sha512In (ivRegs .sha512)) =
      ⟨0xf6afceb8bcfcddf5, 0x6a09e667f3bcc908, 0xbb67ae8584caa73b, 0x3c6ef372fe94f82b,
        0x58cb02347ab51f91, 0x510e527fade682d1, 0x9b05688c2b3e6c1f, 0x1f83d9abfb41bd6b⟩ := by decide +kernel

/-! ## Whole blocks and messages (95_test_vectors.md sections 2.5 and 2.8) -/

theorem test_compress_md5_zeros : compress .md5 (Vector.replicate 8 0) (List.replicate 64 0) =
    #v[0xf7cd1c97, 0xa5483681, 0x2b68d832, 0xf90ca639, 0, 0, 0, 0] := by decide +kernel

theorem test_compress_sha1_zeros : compress .sha1 (Vector.replicate 8 0) (List.replicate 64 0) =
    #v[0x9e1547ed, 0x57ec91c2, 0x30fa8bc8, 0xc7785a54, 0xa7efa5e3, 0, 0, 0] := by decide +kernel

theorem test_compress_sha256_zeros : compress .sha256 (Vector.replicate 8 0) (List.replicate 64 0) =
    #v[0x7ca51614, 0x425c3ba8, 0xce54dd2f, 0xc2020ae7, 0xb6e574d1, 0x98136d0f, 0xae7e26cc, 0xbf0be7a6] := by
  decide +kernel

theorem test_compress_sha512_zeros : compress .sha512 (Vector.replicate 8 0) (List.replicate 128 0) =
    #v[0xad3a5da838ebf830, 0x5d7142ff85fcbedb, 0x7fa8bf86d6f7ca99, 0x1c6b15b039d70bbf,
      0x29f6515289923518, 0x6fd7101d5f2e8f3a, 0x1c358d2476531450, 0x568c0d99d756dc3c] := by decide +kernel

/-- A digest as its string. -/
def hashString (alg : Alg) (text : List Char) : List Byte := toHexString (hashDigest alg (text.map asciiByte))

theorem test_md5_abc : hashString .md5 ['a', 'b', 'c'] =
    "900150983cd24fb0d6963f7d28e17f72".toList.map asciiByte := by decide +kernel

theorem test_sha1_abc : hashString .sha1 ['a', 'b', 'c'] =
    "a9993e364706816aba3e25717850c26c9cd0d89d".toList.map asciiByte := by decide +kernel

theorem test_sha224_abc : hashString .sha224 ['a', 'b', 'c'] =
    "23097d223405d8228642a477bda255b32aadbce4bda0b3f7e36c9da7".toList.map asciiByte := by decide +kernel

theorem test_sha256_abc : hashString .sha256 ['a', 'b', 'c'] =
    "ba7816bf8f01cfea414140de5dae2223b00361a396177a9cb410ff61f20015ad".toList.map asciiByte := by decide +kernel

theorem test_sha384_abc : hashString .sha384 ['a', 'b', 'c'] =
    ("cb00753f45a35e8bb5a03d699ac65007272c32ab0eded163".toList ++
      "1a8b605a43ff5bed8086072ba1e7cc2358baeca134c825a7".toList).map asciiByte := by decide +kernel

/-- The two-block path of SHA-512, 119 bytes (program P6), by its first eight characters. -/
theorem test_sha512_119 : (hashString .sha512 (List.replicate 119 'a')).take 16 =
    "130396a75cb483f2".toList.map asciiByte := by decide +kernel

theorem test_sha512_224_abc : hashString .sha512_224 ['a', 'b', 'c'] =
    "4634270f707b6a54daae7530460842e20e37ed265ceee9a43e8924aa".toList.map asciiByte := by decide +kernel

theorem test_sha512_256_abc : hashString .sha512_256 ['a', 'b', 'c'] =
    "53048e2681941ef99b2e29b76b4c7dabe4c2d0c634fc6d46e0e2f13107e7af23".toList.map asciiByte := by decide +kernel

/-- The padding rows of 95_test_vectors.md section 2.6, by their padded lengths and zero counts. -/
theorem test_padding_table :
    [0, 3, 55, 56, 63].map (paddedLength .md5) = [64, 64, 64, 128, 128] ∧
    [0, 3, 55, 56, 63].map (zeroCount .md5) = [55, 52, 0, 63, 56] ∧
    [0, 3, 111, 112, 119, 127].map (paddedLength .sha512) = [128, 128, 128, 256, 256, 256] ∧
    [0, 3, 111, 112, 119, 127].map (zeroCount .sha512) = [111, 108, 0, 127, 120, 112] := by decide

/-! ## Witnesses: each statement's hypotheses are met -/

/-- A reset in the middle of a message. -/
theorem witness_ResetGivesUninitAndNoError :
    ({ activeAt .sha256 24 3 (letters 3) with input := [.rst, .cmd 0x1000] } : State).input =
      HostEvent.rst :: [.cmd 0x1000] := by decide

/-- Two different states in each of UNINIT and FAILED. -/
theorem witness_ContextUnobservableBeforeInit :
    (sameOutsideContext State.reset { State.reset with len := 8, alg := .sha1 } ∧ State.reset.phase = .uninit ∧
      State.reset ≠ { State.reset with len := 8, alg := .sha1 }) ∧
    (sameOutsideContext (failedWith .invalidState) { failedWith .invalidState with buflen := 300 } ∧
      (failedWith .invalidState).phase = .failed) := by
  unfold sameOutsideContext; decide +kernel

theorem witness_InitWritesWholeContext :
    (Instr.initMd5, Alg.md5) ∈ [(Instr.initMd5, Alg.md5), (.initSha1, .sha1), (.initSha224, .sha224), (.initSha256, .sha256),
      (.initSha384, .sha384), (.initSha512, .sha512), (.initSha512_224, .sha512_224), (.initSha512_256, .sha512_256)] := by
  decide

theorem witness_InitialValuesRederived : 0 < 8 ∧ 7 < 8 ∧
    (Alg.sha512_256, "SHA-512/256".toList.map asciiByte) ∈
      [(Alg.sha512_224, "SHA-512/224".toList.map asciiByte), (.sha512_256, "SHA-512/256".toList.map asciiByte)] := by
  decide +kernel

theorem witness_UndefinedSelectorRaises : 8 ≤ (8 : BitVec 4).toNat ∧ 8 ≤ (15 : BitVec 4).toNat := by decide

/-- The hypotheses of `UpdateAppendsOneByte` at one state. -/
abbrev appends (s : State) : Prop :=
  s.phase = .active ∧ s.buf.wf = true ∧ s.len.toNat + 8 ≤ 2 ^ s.alg.counterBits - 1 ∧ s.buflen.toNat < 256 ∧
  s.buflen.toNat + 1 ≠ s.alg.blockSize

/-- An empty buffer, a buffer one byte short of the boundary's, the last length that fits, address 255. -/
theorem witness_UpdateAppendsOneByte :
    appends (activeAt .sha256 0 0 []) ∧ appends (activeAt .md5 496 62 (letters 62)) ∧
    appends (activeAt .sha384 1008 126 (letters 126)) ∧ appends (activeAt .sha1 (2 ^ 64 - 16) 62 []) ∧
    appends (activeAt .sha512 (2 ^ 128 - 16) 126 []) ∧ appends (activeAt .md5 0 255 []) := by decide +kernel

theorem witness_UpdateCompressesFullBlock :
    (let s := activeAt .md5 504 63 (letters 63);
      s.phase = .active ∧ s.buf.wf = true ∧ s.len.toNat + 8 ≤ 2 ^ s.alg.counterBits - 1 ∧
      s.buflen.toNat + 1 = s.alg.blockSize) ∧
    (let s := activeAt .sha512 1016 127 (letters 127);
      s.phase = .active ∧ s.buf.wf = true ∧ s.len.toNat + 8 ≤ 2 ^ s.alg.counterBits - 1 ∧
      s.buflen.toNat + 1 = s.alg.blockSize) := by decide +kernel

/-- The counter at its last value, 64 and 128 bits, and one byte before it. -/
theorem witness_LengthOverflowRaises :
    (let s := activeAt .sha256 (2 ^ 64 - 8) 63 [];
      s.phase = .active ∧ s.len.toNat + 8 > 2 ^ s.alg.counterBits - 1 ∧ s.len.toNat % 8 = 0 ∧
      s.len.toNat ≤ 2 ^ s.alg.counterBits - 8) ∧
    (let s := activeAt .sha512_224 (2 ^ 128 - 8) 127 [];
      s.phase = .active ∧ s.len.toNat + 8 > 2 ^ s.alg.counterBits - 1 ∧ s.len.toNat % 8 = 0 ∧
      s.len.toNat ≤ 2 ^ s.alg.counterBits - 8) ∧
    (let s := activeAt .md5 (2 ^ 64 - 16) 62 [];
      s.phase = .active ∧ s.len.toNat % 8 = 0 ∧ s.len.toNat ≤ 2 ^ s.alg.counterBits - 8 ∧
      s.len.toNat + 8 ≤ 2 ^ s.alg.counterBits - 1 ∧ s.buflen.toNat < 256 ∧
      ((nextOf (exec (.update 0x61) s)).bind State.rsp).map Response.status = some .ok) := by decide +kernel

/-- A context at the start, and one a byte before its first block boundary. -/
theorem witness_ContextFollowsMessage :
    contextHolds .sha512 [] (activeAt .sha512 0 0 []) ∧ 8 * (([] : List Byte).length + 1) ≤ 2 ^ Alg.sha512.counterBits - 8 ∧
    contextHolds .md5 (List.replicate 63 0x61) (activeAt .md5 504 63 (letters 63)) ∧
    8 * ((List.replicate 63 (0x61 : Byte)).length + 1) ≤ 2 ^ Alg.md5.counterBits - 8 := by
  unfold contextHolds; decide +kernel

theorem witness_OutOfRangeAccessFaults :
    (let s := activeAt .md5 0 256 [];
      s.phase = .active ∧ 256 ≤ s.buflen.toNat ∧ s.len.toNat + 8 ≤ 2 ^ s.alg.counterBits - 1) ∧
    (let s := activeAt .sha512 0 511 [];
      s.phase = .active ∧ 256 ≤ s.buflen.toNat ∧ s.len.toNat + 8 ≤ 2 ^ s.alg.counterBits - 1) := by decide +kernel

/-- Each side of the one-block rule at its boundary. -/
theorem witness_PaddingTakesOneOrTwoBlocks :
    55 < Alg.md5.blockSize ∧ 55 + 1 + Alg.md5.lengthBytes ≤ Alg.md5.blockSize ∧
    56 < Alg.md5.blockSize ∧ Alg.md5.blockSize < 56 + 1 + Alg.md5.lengthBytes ∧ Alg.md5.blockSize = 64 ∧
    111 < Alg.sha512.blockSize ∧ 111 + 1 + Alg.sha512.lengthBytes ≤ Alg.sha512.blockSize ∧
    112 < Alg.sha512.blockSize ∧ Alg.sha512.blockSize < 112 + 1 + Alg.sha512.lengthBytes ∧
    Alg.sha512.blockSize = 128 := by decide

/-- The pending bytes at both ends of the range and on both sides of the one-block rule. -/
theorem witness_PaddingLayout :
    ∀ r ∈ [0, 55, 56, 63], let s := activeAt .sha256 (8 * r) r (letters r);
      s.buf.wf = true ∧ s.buflen.toNat < s.alg.blockSize := by decide +kernel

theorem witness_LengthFieldByteOrder :
    7 < Alg.md5.lengthBytes ∧ 7 < Alg.sha1.lengthBytes ∧ 15 < Alg.sha512.lengthBytes ∧ 0 < Alg.sha384.lengthBytes := by
  decide

theorem witness_FinalizePadsCompressesAndWipes :
    ∀ r ∈ [0, 111, 112, 127], let s := activeAt .sha512 (8 * r) r (letters r);
      s.phase = .active ∧ s.buf.wf = true ∧ s.buflen.toNat < s.alg.blockSize := by decide +kernel

theorem witness_PaddingFsmRefinesFinalize : (activeAt .md5 0 0 []).phase = .active := by decide

/-- UPDATE and FINALIZE after FINALIZE, TOHEX before it, and each in UNINIT and FAILED. -/
theorem witness_WrongPhaseRaisesInvalidState :
    doneMd5.phase ≠ .active ∧ (activeAt .md5 0 0 []).phase ≠ .done ∧ State.reset.phase ≠ .active ∧
    State.reset.phase ≠ .done ∧ (failedWith .illegalCommand).phase ≠ .active ∧
    (failedWith .illegalCommand).phase ≠ .done := by decide

theorem witness_ToHexReadsDigest : doneMd5.phase = .done ∧ (failedWith .invalidState).phase ≠ .done := by decide

theorem witness_HexCharactersOfBytes : 0 < ([0x0b] : List Byte).length ∧ 1 < ([0x00, 0xff] : List Byte).length ∧
    toHexString [0x0b] = [0x30, 0x62] ∧ toHexString [0x00, 0xff] = [0x30, 0x30, 0x66, 0x66] := by decide

theorem witness_FixedOutputWidth : doneMd5.phase = .done := by decide

/-- After FINALIZE, a TOHEX, a second FINALIZE and a TOHEX. -/
theorem witness_DigestImmutableUntilInit :
    doneMd5.phase ≠ .active ∧
    (∀ w ∈ ([0x4000, 0x3000, 0x4000] : List Word16), ∀ alg, decode w ≠ .ok (initCommandOf alg)) ∧
    ∃ t rs, runCommands [0x4000, 0x3000, 0x4000] doneMd5 = some (t, rs) := by
  refine ⟨by decide, ?_, _, _, rfl⟩
  intro w hw alg
  simp only [List.mem_cons, List.not_mem_nil, or_false] at hw
  rcases hw with rfl | rfl | rfl <;> cases alg <;> decide

/-- Each of the four errors, raised in a state of its own. -/
theorem witness_ErrorsArePrecise :
    (runCommand 0x0000 State.reset = .next (raise .illegalCommand State.reset)) ∧
    (runCommand 0x1f00 doneMd5 = .next (raise .invalidAlgorithmSelector doneMd5)) ∧
    (runCommand 0x4000 (activeAt .md5 0 0 []) = .next (raise .invalidState (activeAt .md5 0 0 []))) ∧
    (let s := activeAt .sha256 (2 ^ 64 - 8) 63 [];
      nextOf (runCommand 0x20bb s) = some (raise .messageTooLarge s)) := by
  refine ⟨rfl, rfl, rfl, by decide +kernel⟩

/-- The same four, by their statuses. -/
theorem witness_EachErrorHasItsCause :
    (raise .illegalCommand State.reset).rsp = some (errorResponse .illegalCommand) ∧
    (raise .invalidAlgorithmSelector doneMd5).rsp = some (errorResponse .invalidAlgorithmSelector) ∧
    (raise .invalidState (activeAt .md5 0 0 [])).rsp = some (errorResponse .invalidState) ∧
    (raise .messageTooLarge (activeAt .sha256 (2 ^ 64 - 8) 63 [])).rsp = some (errorResponse .messageTooLarge) := by
  decide +kernel

/-- One word of each case of 30_encoding.md R87. -/
theorem witness_IllegalWordsRaise :
    (∃ e, decode 0x0fff = .error e) ∧ (∃ e, decode 0x5000 = .error e) ∧ (∃ e, decode 0x1701 = .error e) ∧
    (∃ e, decode 0x2100 = .error e) ∧ (∃ e, decode 0x30ff = .error e) ∧ (∃ e, decode 0x4f00 = .error e) :=
  ⟨⟨_, rfl⟩, ⟨_, rfl⟩, ⟨_, rfl⟩, ⟨_, rfl⟩, ⟨_, rfl⟩, ⟨_, rfl⟩⟩

/-- The word of each clause, and a phase in which a later check would have failed too. -/
theorem witness_ChecksInFixedOrder :
    (∃ t, runCommand 0x2161 State.reset = .next t) ∧
    (decode 0x1900 = .ok (.initUndef 9) ∧ ∃ t, runCommand 0x1900 State.reset = .next t) ∧
    (decode 0x2061 = .ok (.update 0x61) ∧ (doneMd5.phase ≠ .active) ∧ ∃ t, runCommand 0x2061 doneMd5 = .next t) ∧
    (decode 0x3000 = .ok .finalize ∧ ∃ t, runCommand 0x3000 State.reset = .next t) ∧
    (decode 0x4000 = .ok .toHex ∧ ∃ t, runCommand 0x4000 State.reset = .next t) ∧
    (let s := activeAt .md5 (2 ^ 64 - 8) 63 [];
      s.phase = .active ∧ s.len.toNat + 8 > 2 ^ s.alg.counterBits - 1 ∧ (nextOf (runCommand 0x20bb s)).isSome) :=
  ⟨⟨_, rfl⟩, ⟨by decide, _, rfl⟩, ⟨by decide, by decide, _, rfl⟩, ⟨by decide, _, rfl⟩, ⟨by decide, _, rfl⟩,
    by decide +kernel⟩

/-- A command in each phase (95_test_vectors.md section 2.9). -/
theorem witness_PhaseTransitionTable :
    (nextOf (runCommand 0x3000 State.reset)).map State.phase = some .failed ∧
    (nextOf (runCommand 0x2061 (activeAt .md5 0 0 []))).map State.phase = some .active ∧
    (nextOf (runCommand 0x4000 doneMd5)).map State.phase = some .done ∧
    (nextOf (runCommand 0x1100 (failedWith .invalidState))).map State.phase = some .active := by decide +kernel

theorem witness_OnlyInitLeavesFailed :
    (failedWith .invalidState).phase = .failed ∧
    (nextOf (runCommand 0x1600 (failedWith .invalidState))).isSome ∧
    (nextOf (runCommand 0x1901 (failedWith .invalidState))).map State.err = some .invalidState := by decide +kernel

/-- A command of each kind that answers a next state. -/
theorem witness_WhoWritesWhichRegister :
    (nextOf (exec .initSha1 State.reset)).isSome ∧ (nextOf (exec (.update 0xff) (activeAt .sha1 0 0 []))).isSome ∧
    (nextOf (exec .finalize (activeAt .md5 0 0 []))).isSome ∧ (nextOf (exec .toHex doneMd5)).isSome ∧
    (nextOf (exec (.initUndef 8) doneMd5)).isSome := by decide +kernel

/-- The 32-character response of TOHEX: bytes 0 and 31 are payload, bits from 256 up are not. -/
theorem witness_EveryCommandResponds :
    (nextOf (runCommand 0x4000 doneMd5)).map (fun t => (t.rsp.map fun r => r.data.length,
      (portsOf t).rspData.extractLsb' 0 8, (portsOf t).rspData.extractLsb' 248 8, (portsOf t).rspData.getLsbD 256)) =
    some (some 32, 0x64, 0x65, false) := by decide +kernel

/-- A state of each phase that meets the invariant, the pending bytes at the end of their range. -/
theorem witness_StepKeepsInvariant :
    State.reset.Inv ∧ (activeAt .md5 504 63 (letters 63)).Inv ∧ (activeAt .sha512 (2 ^ 128 - 8) 127 []).Inv ∧
    doneMd5.Inv ∧ (failedWith .illegalCommand).Inv ∧
    (nextOf (step ((activeAt .md5 504 63 (letters 63)).withFetchWord 16 0x2061))).isSome :=
  ⟨by decide +kernel, by decide +kernel, by decide +kernel, by decide +kernel, by decide +kernel, by decide +kernel⟩

theorem witness_CoreNeverStops :
    ({ activeAt .sha512 (2 ^ 128 - 8) 127 [] with input := [.cmd 0x20ff] } : State).Inv := by decide +kernel

theorem witness_StepRunsDecodedCommand :
    (State.reset.withFetchWord 16 0x2061).input = .cmd 0x2061 :: [] ∧ decode 0x2061 = .ok (.update 0x61) ∧
    (State.reset.withFetchWord 16 0x0000).input = .cmd 0x0000 :: [] ∧ decode 0x0000 = .error .reservedOp ∧
    State.reset.input = [] := by decide

theorem witness_SequencesCompose : ∃ t rs, runCommands [0x1000, 0x4000, 0x0000] State.reset = some (t, rs) :=
  ⟨_, _, rfl⟩

/-- An UPDATE sequence with no context fails. -/
theorem witness_ChunkingInvariance :
    ∃ t, apiUpdate [0x61, 0x62] State.reset = some (t, .invalidState) ∧ Status.invalidState ≠ .ok :=
  ⟨_, rfl, by decide⟩

/-- A full block's bytes are stale once `BUFLEN` is 0; another context never had them. -/
theorem witness_StaleBytesUnobservable :
    let s := activeAt .md5 512 0 (letters 64);
    let t := activeAt .md5 512 0 [];
    sameButStaleBytes s t ∧ s ≠ t ∧ s.buf.wf = true ∧ t.buf.wf = true ∧ s.phase = .active ∧
      s.buflen.toNat < s.alg.blockSize := by
  refine ⟨⟨⟨rfl, rfl, rfl, rfl, rfl⟩, rfl, rfl, rfl, rfl, rfl, fun a ha => ?_⟩, by decide +kernel⟩
  exact absurd ha (Nat.not_lt_zero a)

theorem witness_StreamedDigestIsDigestOfMessage :
    8 * ([] : List Byte).length ≤ 2 ^ Alg.md5.counterBits - 8 ∧
    8 * (List.replicate 240 (0x61 : Byte)).length ≤ 2 ^ Alg.sha512.counterBits - 8 := by decide +kernel

theorem witness_DecodeAndEncodeAgree :
    (Instr.initUndef 8).wf = true ∧ (Instr.initUndef 15).wf = true ∧ (Instr.update 0xff).wf = true ∧
    decode 0x1f00 = .ok (.initUndef 15) := by decide

theorem witness_OpcodeTableDecides :
    OpcodeRow.mk "UPDATE" 0x2000 0xFF00 ∈ opcodeTable ∧ ∀ row ∈ opcodeTable, row.selects 0x0fff = false := by decide

theorem witness_RotateAndShiftFormulas : 0 < 32 ∧ 31 < 32 ∧ 63 < 64 := by decide

/-- The first and last expanded words. -/
theorem witness_ScheduleRecurrences : 15 < 16 ∧ 16 ≤ 16 ∧ 16 < 64 ∧ 63 < 64 ∧ 79 < 80 := by decide

theorem witness_Md5StepEquations : 0 < 64 ∧ 63 < 64 := by decide

theorem witness_Md5ConstantsAreSines : 0 < 64 ∧ 63 < 64 := by decide

/-- The first and the last zero byte of the empty message's padding. -/
theorem witness_PaddedDataClosedForm :
    ([] : List Byte).length + 1 ≤ 1 ∧ 1 < (paddedMessage .md5 []).length - Alg.md5.lengthBytes ∧
    55 < (paddedMessage .md5 []).length - Alg.md5.lengthBytes := by decide +kernel

theorem witness_Sha1RoundEquations : 0 < 80 ∧ 19 < 80 ∧ 79 < 80 := by decide

theorem witness_Sha2RoundEquations : 63 < 64 ∧ 79 < 80 := by decide

theorem witness_RoundConstantsAreCubeRoots : 79 < 80 ∧ 63 < 64 := by decide

theorem witness_CompressAddsIntoStateWords :
    Alg.md5.unit = .md5Compress ∧ Alg.sha1.unit = .sha1Compress ∧ Alg.sha224.unit = .sha256Compress ∧
    Alg.sha512_224.unit = .sha512Compress := by decide

/-- The IV meets the shape of `H`, and registers that differ only above bit 31 agree for a 32-bit algorithm. -/
theorem witness_CompressUsesOnlyItsInputs :
    unusedWordsZero .sha1 (ivRegs .sha1) ∧
    (∀ k : Fin 8, k.val < Alg.md5.stateWords →
      ((ivRegs .md5)[k]).setWidth Alg.md5.wordBits =
        (((ivRegs .md5).map fun x => x ||| 0xffffffff00000000)[k]).setWidth Alg.md5.wordBits) ∧
    (∀ j, j < Alg.md5.blockSize → (List.replicate 64 (0x61 : Byte)).getD j 0 = (List.replicate 65 (0x61 : Byte)).getD j 0) ∧
    4 ≤ (4 : Fin 8).val := by decide +kernel

end Sys2Proof.Tests
end

section
/-! The buffer-range fault of UPDATE and FINALIZE (20_memory.md R50, R53; log entry 7). -/

namespace Sys2Proof.Machine

theorem exec_update (data : Byte) (s : State) : exec (.update data) s = execUpdate data s := rfl

theorem exec_finalize (s : State) : exec .finalize s = execFinalize s := rfl

/-- The counter has room for one more byte (42_update.md R153). -/
theorem lengthWouldOverflow_eq_false_iff (alg : Alg) (len : BitVec 128) :
    lengthWouldOverflow alg len = false ↔ len.toNat + 8 ≤ 2 ^ alg.counterBits - 1 := by
  simp only [lengthWouldOverflow, decide_eq_false_iff_not, gt_iff_lt, not_lt]

/-- An UPDATE that passes both its checks faults when `BUFLEN` is no address of `BUF`. -/
theorem execUpdate_fault {data : Byte} {s : State} (hphase : s.phase = .active)
    (hroom : lengthWouldOverflow s.alg s.len = false) (hrange : ¬ s.buflen.toNat < 256) :
    execUpdate data s = .fault .bufferRange := by
  rw [execUpdate_eq, if_neg (not_not.mpr hphase), hroom, if_neg Bool.false_ne_true, if_neg hrange]

/-- A FINALIZE that passes its check faults when `BUFLEN` is no address of `BUF`. -/
theorem execFinalize_fault {s : State} (hphase : s.phase = .active) (hrange : ¬ s.buflen.toNat < 256) :
    execFinalize s = .fault .bufferRange := by
  rw [execFinalize_eq, if_neg (not_not.mpr hphase), if_neg hrange]

/-- Settles O12: past the phase and counter checks, both commands access `BUF` at `BUFLEN` or fault. -/
theorem outOfRangeAccessFaults : Obligations.OutOfRangeAccessFaults := by
  intro data s hphase hbuflen
  have hrange : ¬ s.buflen.toNat < 256 := not_lt.mpr hbuflen
  constructor
  · intro hroom
    rw [exec_update]
    exact execUpdate_fault hphase ((lengthWouldOverflow_eq_false_iff s.alg s.len).mpr hroom) hrange
  · rw [exec_finalize]
    exact execFinalize_fault hphase hrange

end Sys2Proof.Machine
end

section
/-! What a compression keeps of `H` (20_memory.md R60, 10_state.md R22). -/

namespace Sys2Proof.Machine

theorem zextWord_lt (x : Word32) : (zextWord x).toNat < 2 ^ 32 := by
  simp only [zextWord, BitVec.toNat_setWidth]
  omega

/-- A compression leaves `H[n..7]` alone. -/
theorem compress_unused_word (alg : Alg) (h : Vector Word64 8) (M : List Byte) (i : Fin 8)
    (hi : alg.stateWords ≤ i.val) : (compress alg h M)[i] = h[i] := by
  unfold compress
  unfold Alg.stateWords at hi
  cases hunit : alg.unit <;> simp only [hunit] at hi ⊢
  case md5Compress => match i, hi with | 4, _ | 5, _ | 6, _ | 7, _ => rfl
  case sha1Compress => match i, hi with | 5, _ | 6, _ | 7, _ => rfl
  case sha256Compress => omega
  case sha512Compress => omega

/-- A compression of 32-bit words keeps bits 63:32 of every register zero. -/
theorem compress_word_lt {alg : Alg} {h : Vector Word64 8} (M : List Byte) (hw : alg.wordBits = 32)
    (hh : ∀ i : Fin 8, h[i].toNat < 2 ^ 32) (i : Fin 8) : (compress alg h M)[i].toNat < 2 ^ 32 := by
  unfold compress
  unfold Alg.wordBits at hw
  cases hunit : alg.unit <;> simp only [hunit] at hw ⊢
  case md5Compress =>
    match i with
    | 0 | 1 | 2 | 3 => exact zextWord_lt _
    | 4 => exact hh 4
    | 5 => exact hh 5
    | 6 => exact hh 6
    | 7 => exact hh 7
  case sha1Compress =>
    match i with
    | 0 | 1 | 2 | 3 | 4 => exact zextWord_lt _
    | 5 => exact hh 5
    | 6 => exact hh 6
    | 7 => exact hh 7
  case sha256Compress => match i with | 0 | 1 | 2 | 3 | 4 | 5 | 6 | 7 => exact zextWord_lt _
  case sha512Compress => omega

/-- A compression keeps the unused part of `H` zero. -/
theorem unusedWordsZero_compress {alg : Alg} {h : Vector Word64 8} (M : List Byte)
    (hz : unusedWordsZero alg h) : unusedWordsZero alg (compress alg h M) := by
  obtain ⟨hwords, hbits⟩ := hz
  refine ⟨fun i hi => ?_, fun hw i => compress_word_lt M hw (hbits hw) i⟩
  rw [compress_unused_word alg h M i hi, hwords i hi]

theorem unusedWordsZero_ivRegs (alg : Alg) : unusedWordsZero alg (ivRegs alg) := by
  cases alg <;> decide +kernel

theorem unusedWordsZero_paddedCompress {s : State} (hz : unusedWordsZero s.alg s.h) :
    unusedWordsZero s.alg (paddedCompress s) := by
  unfold paddedCompress
  dsimp only
  split
  · exact unusedWordsZero_compress _ (unusedWordsZero_compress _ hz)
  · exact unusedWordsZero_compress _ hz

end Sys2Proof.Machine
end

section
/-! The invariant of a core at every command boundary, kept by each command and by a reset
(10_state.md R29). -/

namespace Sys2Proof.Machine

/-- `LEN + 8` does not wrap while the counter has room (42_update.md R153). -/
theorem toNat_len_add_eight {alg : Alg} {len : BitVec 128} (hroom : lengthWouldOverflow alg len = false) :
    (len + 8).toNat = len.toNat + 8 := by
  rw [lengthWouldOverflow_eq_false_iff] at hroom
  have hc : 2 ^ alg.counterBits ≤ 2 ^ 128 := by
    rcases alg_sizes alg with ⟨-, -, hc, -⟩ | ⟨-, -, hc, -⟩ <;> simp [hc]
  have h8 : (8 : BitVec 128).toNat = 8 := rfl
  rw [BitVec.toNat_add, h8]
  omega

theorem responseShape_empty (status : Status) : responseShape { status := status, len := 0, data := [] } :=
  ⟨rfl, Nat.zero_le _, fun _ => rfl⟩

/-- An OK response whose `len` is the count of at most 128 bytes is well shaped. -/
theorem responseShape_ok {data : List Byte} {n : Nat} (hlen : data.length = n) (hn : n ≤ 128) :
    responseShape { status := .ok, len := BitVec.ofNat 8 n, data := data } := by
  refine ⟨?_, hlen.trans_le hn, fun h => absurd rfl h⟩
  rw [BitVec.toNat_ofNat, hlen]
  omega

theorem portShape_some {r : Response} (h : responseShape r) : portShape (some r) := by
  simpa [portShape] using h

theorem errorStatus_ne_ok (e : ErrorKind) : e.status ≠ .ok := by cases e <;> decide

theorem inv_raise {s : State} (e : ErrorKind) (h : s.Inv) : (raise e s).Inv := by
  obtain ⟨hwf, herr, -, -, -⟩ := h
  refine ⟨hwf, ?_, portShape_some (responseShape_empty _), by simp, by simp⟩
  by_cases hf : s.phase = .failed
  · simpa [hf] using herr
  · simpa [hf] using errorStatus_ne_ok e

/-- INIT establishes the invariant from any state (41_init.md R130). -/
theorem inv_beginContext (alg : Alg) (s : State) : (beginContext alg s).Inv := by
  refine ⟨by simp, by simp, portShape_some (responseShape_empty _), fun _ => ?_, by simp⟩
  have := blockSize_pos alg
  refine ⟨?_, ?_, ?_, ?_, by simp, unusedWordsZero_ivRegs alg⟩ <;> simp [this]

theorem toNat_buflen_add_one {s : State} (h : s.buflen.toNat < s.alg.blockSize) :
    (s.buflen + 1).toNat = s.buflen.toNat + 1 := by
  have hB := two_blocks_le s.alg
  have h1 : (1 : BitVec 9).toNat = 1 := rfl
  rw [BitVec.toNat_add, h1]
  omega

/-- `BUFLEN` after an UPDATE within a block (42_update.md R150, R152). -/
theorem toNat_updated_buflen {s : State} (data : Byte) (h : s.buflen.toNat < s.alg.blockSize) :
    (updated data s).buflen.toNat =
      if s.buflen.toNat + 1 = s.alg.blockSize then 0 else s.buflen.toNat + 1 := by
  have hadd := toNat_buflen_add_one h
  unfold updated
  dsimp only
  rw [hadd]
  split
  · rfl
  · exact hadd

/-- `H` after an UPDATE: one compression exactly when the byte fills the block (42_update.md R152). -/
theorem updated_h {s : State} (data : Byte) (h : s.buflen.toNat < s.alg.blockSize) :
    (updated data s).h =
      if s.buflen.toNat + 1 = s.alg.blockSize then
        compress s.alg s.h ((updated data s).buf.readBytes 0 s.alg.blockSize)
      else s.h := by
  rw [updated_buf]
  unfold updated
  dsimp only
  rw [toNat_buflen_add_one h]
  split <;> rfl

/-- One byte more in the counter is one byte more in the block, or a block closed. -/
theorem activeShape_updated {s : State} (data : Byte) (h : activeShape s)
    (hroom : lengthWouldOverflow s.alg s.len = false) : activeShape (updated data s) := by
  obtain ⟨hlt, hmod, hdvd, hmax, hdigest, hz⟩ := h
  have hbuflen := toNat_updated_buflen data hlt
  have hlen := toNat_len_add_eight hroom
  rw [lengthWouldOverflow_eq_false_iff] at hroom
  have hz' : unusedWordsZero s.alg (updated data s).h := by
    rw [updated_h data hlt]
    split
    · exact unusedWordsZero_compress _ hz
    · exact hz
  simp only [activeShape, updated_alg, updated_len, updated_digest, hbuflen, hlen]
  have hblock : (if s.buflen.toNat + 1 = s.alg.blockSize then 0 else s.buflen.toNat + 1) =
      (s.len.toNat + 8) / 8 % s.alg.blockSize := by
    rcases alg_sizes s.alg with ⟨hB, -⟩ | ⟨hB, -⟩ <;> rw [hB] at hmod ⊢ <;> split <;> omega
  have hcounter : s.len.toNat + 8 ≤ 2 ^ s.alg.counterBits - 8 := by
    rcases alg_sizes s.alg with ⟨-, -, hc, -⟩ | ⟨-, -, hc, -⟩ <;> rw [hc] at hroom ⊢ <;> omega
  exact ⟨by split <;> omega, hblock, by omega, hcounter, hdigest, hz'⟩

theorem inv_updated {s : State} (data : Byte) (h : s.Inv) (hphase : s.phase = .active)
    (hroom : lengthWouldOverflow s.alg s.len = false) : (respond .ok [] (updated data s)).Inv := by
  obtain ⟨hwf, herr, -, hactive, -⟩ := h
  have hshape := hactive hphase
  have hB := two_blocks_le s.alg
  have hlt := hshape.1
  refine ⟨?_, by simpa using herr, portShape_some (responseShape_empty _),
    fun _ => activeShape_updated data hshape hroom, by simp [hphase]⟩
  rw [respond_buf, updated_buf]
  exact Memory.wf_write hwf (by omega)

theorem inv_finalized {s : State} (h : s.Inv) (hphase : s.phase = .active) : (finalized s).Inv := by
  obtain ⟨-, herr, -, hactive, -⟩ := h
  obtain ⟨-, -, hdvd, hmax, -, hz⟩ := hactive hphase
  have hD := digestBytes_le s.alg
  refine ⟨by simp, by simpa [hphase] using herr, ?_, by simp, fun _ => ?_⟩
  · rw [finalized_rsp]
    exact portShape_some (responseShape_ok (length_serialise _ _) (by omega))
  · simpa [doneShape, hdvd, hmax] using unusedWordsZero_paddedCompress hz

/-- A command that only responds, as TOHEX in DONE does (48_digest_format.md R326), keeps the invariant. -/
theorem inv_respond {s : State} {data : List Byte} (h : s.Inv) (hdata : data.length ≤ 128) :
    (respond .ok data s).Inv := by
  obtain ⟨hwf, herr, -, hactive, hdone⟩ := h
  exact ⟨hwf, herr, portShape_some (responseShape_ok rfl hdata), hactive, hdone⟩

theorem inv_resetEvent (s : State) : (resetEvent s).Inv := by
  refine ⟨?_, by simp, by simp [portShape], by simp, by simp⟩
  simp only [resetEvent]
  exact Memory.wf_writeBytes Memory.wf_zeroed (by simp)

theorem inv_runCommand {w : Word16} {s t : State} (h : s.Inv) (hrun : runCommand w s = .next t) : t.Inv := by
  rcases runCommand_cases hrun with ⟨-, -, rfl⟩ | ⟨alg, -, rfl⟩ | ⟨-, -, rfl⟩ | ⟨-, -, -, rfl⟩ |
    ⟨-, -, -, -, rfl⟩ | ⟨data, -, hphase, hroom, -, rfl⟩ | ⟨-, -, rfl⟩ | ⟨-, hphase, -, rfl⟩ | ⟨-, -, rfl⟩ |
    ⟨-, -, rfl⟩
  · exact inv_raise _ h
  · exact inv_beginContext alg s
  · exact inv_raise _ h
  · exact inv_raise _ h
  · exact inv_raise _ h
  · exact inv_updated data h hphase hroom
  · exact inv_raise _ h
  · exact inv_finalized h hphase
  · exact inv_raise _ h
  · have := digestBytes_le s.alg
    exact inv_respond h (by simp; omega)

/-- Settles O35: a step is idle, runs a command word, or takes a reset; each keeps the invariant. -/
theorem stepKeepsInvariant : Obligations.StepKeepsInvariant := by
  intro s t h hstep
  unfold step at hstep
  split at hstep
  · cases hstep
    exact h
  · rename_i e rest _
    have h' : State.Inv { s with input := rest } := h
    cases e with
    | cmd w => exact inv_runCommand h' hstep
    | rst =>
      cases hstep
      exact inv_resetEvent _

end Sys2Proof.Machine
end

section
/-! The stale bytes `BUF[BUFLEN..255]` of an ACTIVE context (10_state.md R36 (a)). -/

namespace Sys2Proof.Machine

/-- Two memories read alike below an address. -/
def Memory.agreeBelow (n : Nat) (m m' : Memory) : Prop := ∀ a, a < n → m.read a = m'.read a

/-- Writing the same bytes on top of what two memories agree on, they agree further up. -/
theorem Memory.agreeBelow_writeBytes {m m' : Memory} {a n : Nat} {vs : List Byte} (hm : m.wf = true)
    (hm' : m'.wf = true) (hn : a + vs.length = n) (hrange : n ≤ 256) (h : Memory.agreeBelow a m m') :
    Memory.agreeBelow n (m.writeBytes a vs) (m'.writeBytes a vs) := by
  intro x hx
  rw [Memory.read_writeBytes x hm (hn ▸ hrange), Memory.read_writeBytes x hm' (hn ▸ hrange)]
  split
  · rfl
  · exact h x (by omega)

theorem Memory.agreeBelow_write {m m' : Memory} {a : Nat} (v : Byte) (hm : m.wf = true) (hm' : m'.wf = true)
    (ha : a < 256) (h : Memory.agreeBelow a m m') : Memory.agreeBelow (a + 1) (m.write a v) (m'.write a v) :=
  Memory.agreeBelow_writeBytes (vs := [v]) hm hm' rfl ha h

theorem Memory.agreeBelow.readBytes_eq {m m' : Memory} {a n k : Nat} (h : Memory.agreeBelow n m m')
    (hk : a + k ≤ n) : m.readBytes a k = m'.readBytes a k := by
  unfold Memory.readBytes
  refine List.map_congr_left fun i hi => h (a + i) ?_
  rw [List.mem_range] at hi
  omega

/-- The padded length has room for the pending bytes, the 0x80 byte and the length field. -/
theorem paddedLength_fits {alg : Alg} {r : Nat} (h : r < alg.blockSize) :
    r + 1 + alg.lengthBytes ≤ paddedLength alg r := by
  obtain ⟨hfit, hP⟩ | ⟨-, hP⟩ := paddedLength_cases alg r
  · omega
  · rcases alg_sizes alg with ⟨hB, hL, -⟩ | ⟨hB, hL, -⟩ <;> omega

/-- The padding hides the stale bytes: it writes every byte from `BUFLEN` up to `P − 1`
(43_finalize_padding.md R171 to R173). -/
theorem paddedBuffer_agreeBelow {s t : State} (hst : sameButStaleBytes s t) (hs : s.buf.wf = true)
    (ht : t.buf.wf = true) (hlt : s.buflen.toNat < s.alg.blockSize) :
    Memory.agreeBelow (paddedLength s.alg s.buflen.toNat) (paddedBuffer s) (paddedBuffer t) := by
  obtain ⟨-, halg, -, hlen, hbuflen, -, hbuf⟩ := hst
  unfold paddedBuffer
  rw [← halg, ← hlen, ← hbuflen]
  dsimp only
  have hfits := paddedLength_fits hlt
  have hP := paddedLength_le s.alg s.buflen.toNat
  have hr : s.buflen.toNat < 256 := by omega
  generalize paddedLength s.alg s.buflen.toNat = P at hfits hP ⊢
  have hzeros : s.buflen.toNat + 1 +
      (List.replicate (P - s.alg.lengthBytes - (s.buflen.toNat + 1)) (0x00 : Byte)).length =
      P - s.alg.lengthBytes := by
    rw [List.length_replicate]
    omega
  have hfield : P - s.alg.lengthBytes + (lengthField s.alg s.len).length = P := by
    rw [length_lengthField]
    omega
  have hws := Memory.wf_write (v := 0x80) hs hr
  have hwt := Memory.wf_write (v := 0x80) ht hr
  have h80 := Memory.agreeBelow_write 0x80 hs ht hr hbuf
  have h00 := Memory.agreeBelow_writeBytes hws hwt hzeros (by omega) h80
  exact Memory.agreeBelow_writeBytes (Memory.wf_writeBytes hws (by omega))
    (Memory.wf_writeBytes hwt (by omega)) hfield hP h00

theorem paddedCompress_eq_of_sameButStaleBytes {s t : State} (hst : sameButStaleBytes s t)
    (hs : s.buf.wf = true) (ht : t.buf.wf = true) (hlt : s.buflen.toNat < s.alg.blockSize) :
    paddedCompress s = paddedCompress t := by
  have hagree := paddedBuffer_agreeBelow hst hs ht hlt
  obtain ⟨-, halg, hh, -, hbuflen, -, -⟩ := hst
  have hpos := blockSize_pos s.alg
  unfold paddedCompress
  rw [← halg, ← hh, ← hbuflen]
  dsimp only
  obtain ⟨-, hP⟩ | ⟨-, hP⟩ := paddedLength_cases s.alg s.buflen.toNat <;> rw [hP] at hagree ⊢
  · rw [if_neg (by omega), if_neg (by omega), hagree.readBytes_eq (by omega)]
  · rw [if_pos rfl, if_pos rfl, hagree.readBytes_eq (a := 0) (by omega), hagree.readBytes_eq (by omega)]

theorem eq_of_sameOutsideContext {s t : State} (hout : sameOutsideContext s t) (halg : s.alg = t.alg)
    (hh : s.h = t.h) (hlen : s.len = t.len) (hbuf : s.buf = t.buf) (hbuflen : s.buflen = t.buflen)
    (hdigest : s.digest = t.digest) : s = t := by
  obtain ⟨hphase, herr, hinput, hrsp, hresets⟩ := hout
  cases s
  cases t
  simp_all only

/-- FINALIZE leaves the same state whatever the stale bytes were. -/
theorem finalized_eq_of_sameButStaleBytes {s t : State} (hst : sameButStaleBytes s t)
    (hs : s.buf.wf = true) (ht : t.buf.wf = true) (hlt : s.buflen.toNat < s.alg.blockSize) :
    finalized s = finalized t := by
  have hH := paddedCompress_eq_of_sameButStaleBytes hst hs ht hlt
  obtain ⟨⟨-, herr, hinput, -, hresets⟩, halg, -, hlen, -, -, -⟩ := hst
  apply eq_of_sameOutsideContext <;> simp [sameOutsideContext, herr, hinput, hresets, halg, hlen, hH]

/-- INIT writes every register of the context (41_init.md R130). -/
theorem beginContext_eq_of_sameOutsideContext (alg : Alg) {s t : State} (h : sameOutsideContext s t) :
    beginContext alg s = beginContext alg t := by
  obtain ⟨-, -, hinput, -, hresets⟩ := h
  apply eq_of_sameOutsideContext <;> simp [sameOutsideContext, hinput, hresets]

theorem sameOutsideContext_raise (e : ErrorKind) {s t : State} (h : sameOutsideContext s t) :
    sameOutsideContext (raise e s) (raise e t) := by
  obtain ⟨hphase, herr, hinput, -, hresets⟩ := h
  simp [sameOutsideContext, hphase, herr, hinput, hresets]

theorem sameOutsideContext_resetEvent {s t : State} (h : sameOutsideContext s t) :
    sameOutsideContext (resetEvent s) (resetEvent t) := by
  obtain ⟨-, -, hinput, -, hresets⟩ := h
  simp [sameOutsideContext, hinput, hresets]

/-- UPDATE writes the byte at `BUFLEN`, and a full block has no stale byte. -/
theorem sameButStaleBytes_updated (data : Byte) {s t : State} (hst : sameButStaleBytes s t)
    (hs : s.buf.wf = true) (ht : t.buf.wf = true) (hlt : s.buflen.toNat < s.alg.blockSize) :
    sameButStaleBytes (respond .ok [] (updated data s)) (respond .ok [] (updated data t)) := by
  obtain ⟨⟨hphase, herr, hinput, -, hresets⟩, halg, hh, hlen, hbuflen, hdigest, hbuf⟩ := hst
  have hB := two_blocks_le s.alg
  have hlt' : t.buflen.toNat < t.alg.blockSize := hbuflen ▸ halg ▸ hlt
  have hagree : Memory.agreeBelow (s.buflen.toNat + 1) (updated data s).buf (updated data t).buf := by
    rw [updated_buf, updated_buf, ← hbuflen]
    exact Memory.agreeBelow_write data hs ht (by omega) hbuf
  refine ⟨?_, ?_, ?_, ?_, ?_, ?_, fun a ha => hagree a ?_⟩
  · simp [sameOutsideContext, hphase, herr, hinput, hresets]
  · simpa using halg
  · rw [respond_h, respond_h, updated_h data hlt, updated_h data hlt', ← hbuflen, ← halg, ← hh]
    split
    · rw [hagree.readBytes_eq (by omega)]
    · rfl
  · simp [hlen]
  · rw [respond_buflen, respond_buflen, ← BitVec.toNat_inj, toNat_updated_buflen data hlt,
      toNat_updated_buflen data hlt', hbuflen, halg]
  · simpa using hdigest
  · rw [respond_buflen, toNat_updated_buflen data hlt] at ha
    split at ha <;> omega

/-- What the next states of two ACTIVE contexts that differ in stale bytes have in common. -/
def alikeAfterStep (s t : State) : Prop :=
  s.rsp = t.rsp ∧ (s = t ∨ (sameButStaleBytes s t ∧ s.phase = .active) ∨
    (sameOutsideContext s t ∧ (s.phase = .failed ∨ s.phase = .uninit)))

theorem alikeAfterStep_raise (e : ErrorKind) {s t : State} (h : sameOutsideContext s t) :
    alikeAfterStep (raise e s) (raise e t) :=
  ⟨rfl, .inr (.inr ⟨sameOutsideContext_raise e h, .inl rfl⟩)⟩

theorem alikeAfterStep_resetEvent {s t : State} (h : sameOutsideContext s t) :
    alikeAfterStep (resetEvent s) (resetEvent t) :=
  ⟨by simp, .inr (.inr ⟨sameOutsideContext_resetEvent h, .inr (by simp)⟩)⟩

theorem alikeAfterStep_of_eq {s t : State} (h : s = t) : alikeAfterStep s t := ⟨h ▸ rfl, .inl h⟩

/-- Each command is an INIT of an algorithm or one of the four others. -/
theorem instr_cases (i : Instr) :
    (∃ alg, i = initCommandOf alg) ∨ (∃ selector, i = .initUndef selector) ∨ (∃ data, i = .update data) ∨
      i = .finalize ∨ i = .toHex := by
  cases i with
  | initMd5 => exact .inl ⟨.md5, rfl⟩
  | initSha1 => exact .inl ⟨.sha1, rfl⟩
  | initSha224 => exact .inl ⟨.sha224, rfl⟩
  | initSha256 => exact .inl ⟨.sha256, rfl⟩
  | initSha384 => exact .inl ⟨.sha384, rfl⟩
  | initSha512 => exact .inl ⟨.sha512, rfl⟩
  | initSha512_224 => exact .inl ⟨.sha512_224, rfl⟩
  | initSha512_256 => exact .inl ⟨.sha512_256, rfl⟩
  | initUndef selector => exact .inr (.inl ⟨selector, rfl⟩)
  | update data => exact .inr (.inr (.inl ⟨data, rfl⟩))
  | finalize => exact .inr (.inr (.inr (.inl rfl)))
  | toHex => exact .inr (.inr (.inr (.inr rfl)))

theorem exec_initCommandOf (alg : Alg) (s : State) : exec (initCommandOf alg) s = .next (beginContext alg s) := by
  cases alg <;> rfl

theorem exec_initUndef (selector : BitVec 4) (s : State) :
    exec (.initUndef selector) s = .next (raise .invalidAlgorithmSelector s) := rfl

theorem exec_toHex (s : State) : exec .toHex s = execToHex s := rfl

theorem exec_toHex_of_ne_done {s : State} (h : s.phase ≠ .done) : exec .toHex s = .next (raise .invalidState s) := by
  rw [exec_toHex, execToHex, if_pos h]

/-- An UPDATE in phase ACTIVE that overflows the counter (42_update.md R153). -/
theorem exec_update_overflow (data : Byte) {s : State} (hphase : s.phase = .active)
    (hover : lengthWouldOverflow s.alg s.len = true) :
    exec (.update data) s = .next (raise .messageTooLarge s) := by
  rw [exec_update, execUpdate_eq, if_neg (not_not.mpr hphase), if_pos hover]

theorem exec_update_room (data : Byte) {s : State} (hphase : s.phase = .active)
    (hroom : lengthWouldOverflow s.alg s.len = false) (hrange : s.buflen.toNat < 256) :
    exec (.update data) s = .next (respond .ok [] (updated data s)) := by
  rw [exec_update, execUpdate_eq, if_neg (not_not.mpr hphase), hroom, if_neg Bool.false_ne_true, if_pos hrange]

theorem exec_finalize_active {s : State} (hphase : s.phase = .active) (hrange : s.buflen.toNat < 256) :
    exec .finalize s = .next (finalized s) := by
  rw [exec_finalize, execFinalize_eq, if_neg (not_not.mpr hphase), if_pos hrange]

/-- Every command takes two ACTIVE contexts that differ in stale bytes alike. -/
theorem exec_alike (i : Instr) {s t : State} (hst : sameButStaleBytes s t) (hs : s.buf.wf = true)
    (ht : t.buf.wf = true) (hphase : s.phase = .active) (hlt : s.buflen.toNat < s.alg.blockSize) :
    ∃ s' t', exec i s = .next s' ∧ exec i t = .next t' ∧ alikeAfterStep s' t' := by
  have hout := hst.1
  have hphase' : t.phase = .active := hout.1 ▸ hphase
  obtain ⟨-, halg, -, hlen, hbuflen, -, -⟩ := id hst
  have hB := two_blocks_le s.alg
  have hrange : s.buflen.toNat < 256 := by omega
  have hrange' : t.buflen.toNat < 256 := hbuflen ▸ hrange
  rcases instr_cases i with ⟨alg, rfl⟩ | ⟨selector, rfl⟩ | ⟨data, rfl⟩ | rfl | rfl
  · exact ⟨_, _, exec_initCommandOf alg s, exec_initCommandOf alg t,
      alikeAfterStep_of_eq (beginContext_eq_of_sameOutsideContext alg hout)⟩
  · exact ⟨_, _, exec_initUndef selector s, exec_initUndef selector t, alikeAfterStep_raise _ hout⟩
  · cases hover : lengthWouldOverflow s.alg s.len with
    | true =>
      have hover' : lengthWouldOverflow t.alg t.len = true := halg ▸ hlen ▸ hover
      exact ⟨_, _, exec_update_overflow data hphase hover, exec_update_overflow data hphase' hover',
        alikeAfterStep_raise _ hout⟩
    | false =>
      have hover' : lengthWouldOverflow t.alg t.len = false := halg ▸ hlen ▸ hover
      exact ⟨_, _, exec_update_room data hphase hover hrange, exec_update_room data hphase' hover' hrange',
        rfl, .inr (.inl ⟨sameButStaleBytes_updated data hst hs ht hlt, by simpa using hphase⟩)⟩
  · exact ⟨_, _, exec_finalize_active hphase hrange, exec_finalize_active hphase' hrange',
      alikeAfterStep_of_eq (finalized_eq_of_sameButStaleBytes hst hs ht hlt)⟩
  · exact ⟨_, _, exec_toHex_of_ne_done (by simp [hphase]), exec_toHex_of_ne_done (by simp [hphase']),
      alikeAfterStep_raise _ hout⟩

/-- Settles O40: idle, a reset, an illegal word and each command take the two contexts alike. -/
theorem staleBytesUnobservable : Obligations.StaleBytesUnobservable := by
  intro s t hst hs ht hphase hlt
  obtain ⟨⟨hp, herr, hinput, hrsp, hresets⟩, hcontext⟩ := id hst
  cases hin : s.input with
  | nil =>
    exact ⟨s, t, by rw [step, hin], by rw [step, ← hinput, hin], hrsp, .inr (.inl ⟨hst, hphase⟩)⟩
  | cons e rest =>
    have hst' : sameButStaleBytes { s with input := rest } { t with input := rest } :=
      ⟨⟨hp, herr, rfl, hrsp, hresets⟩, hcontext⟩
    have hs' : step s = runEvent e { s with input := rest } := by rw [step, hin]
    have ht' : step t = runEvent e { t with input := rest } := by rw [step, ← hinput, hin]
    rw [hs', ht']
    cases e with
    | rst => exact ⟨_, _, rfl, rfl, alikeAfterStep_resetEvent hst'.1⟩
    | cmd w =>
      simp only [runEvent, runCommand]
      cases decode w with
      | error => exact ⟨_, _, rfl, rfl, alikeAfterStep_raise .illegalCommand hst'.1⟩
      | ok i => exact exec_alike i hst' hs ht hphase hlt

end Sys2Proof.Machine
end

section
/-! Which command writes which register (10_state.md R20, R21, R23), and a digest that stays until the next
INIT (R24, R28). -/

namespace Sys2Proof.Machine

/-- Settles O32, by what each command can have done. -/
theorem whoWritesWhichRegister : Obligations.WhoWritesWhichRegister := by
  intro i s t hexec
  rcases exec_cases hexec with ⟨alg, rfl, rfl⟩ | ⟨selector, rfl, rfl⟩ | ⟨data, rfl, h⟩ | ⟨rfl, h⟩ | ⟨rfl, h⟩
  · simp
  · simp
  · rcases execUpdate_cases h with ⟨-, rfl⟩ | ⟨-, -, rfl⟩ | ⟨-, hroom, -, rfl⟩
    · simp
    · simp
    · have hlen : (s.len + 8).toNat = s.len.toNat + 8 := toNat_len_add_eight hroom
      exact ⟨.inr (updated_alg data s), .inr (.inr ⟨⟨data, rfl⟩, by rw [respond_len, updated_len, hlen]⟩),
        .inr (.inl ⟨data, rfl⟩), .inr (.inr (updated_digest data s)), updated_input data s,
        updated_resets data s⟩
  · rcases execFinalize_cases h with ⟨-, rfl⟩ | ⟨-, -, rfl⟩ <;> simp
  · rcases execToHex_cases h with ⟨-, rfl⟩ | ⟨-, rfl⟩ <;> simp

/-- Outside ACTIVE a command word other than INIT raises or responds, and writes no context register. -/
theorem runCommand_without_init {w : Word16} {s t : State} (hphase : s.phase ≠ .active)
    (hw : ∀ alg, decode w ≠ .ok (initCommandOf alg)) (hrun : runCommand w s = .next t) :
    t.phase ≠ .active ∧ t.digest = s.digest ∧ t.alg = s.alg := by
  have hraise : ∀ e, (raise e s).phase ≠ .active ∧ (raise e s).digest = s.digest ∧ (raise e s).alg = s.alg := by
    simp
  rcases runCommand_cases hrun with ⟨-, -, rfl⟩ | ⟨alg, hinit, -⟩ | ⟨-, -, rfl⟩ | ⟨-, -, -, rfl⟩ |
    ⟨-, -, hactive, -⟩ | ⟨-, -, hactive, -⟩ | ⟨-, -, rfl⟩ | ⟨-, hactive, -⟩ | ⟨-, -, rfl⟩ | ⟨-, -, rfl⟩
  · exact hraise _
  · exact absurd hinit (hw alg)
  · exact hraise _
  · exact hraise _
  · exact absurd hactive hphase
  · exact absurd hactive hphase
  · exact hraise _
  · exact absurd hactive hphase
  · exact hraise _
  · exact ⟨hphase, rfl, rfl⟩

/-- A sequence that runs, taken apart at its first command word. -/
theorem runCommands_cons_some {w : Word16} {ws : List Word16} {s t : State} {rs : List Response}
    (h : runCommands (w :: ws) s = some (t, rs)) :
    ∃ s1 rs1, runCommand w s = .next s1 ∧ runCommands ws s1 = some (t, rs1) := by
  simp only [runCommands] at h
  split at h
  · rename_i s1 hs1
    split at h
    · rename_i s2 rs2 hs2
      cases h
      exact ⟨s1, rs2, hs1, hs2⟩
    · cases h
  · cases h
  · cases h

/-- Settles O25, by induction on the command words. -/
theorem digestImmutableUntilInit : Obligations.DigestImmutableUntilInit := by
  intro ws
  induction ws with
  | nil =>
    intro s t rs hphase _ hrun
    cases hrun
    exact ⟨hphase, rfl, rfl⟩
  | cons w ws ih =>
    intro s t rs hphase hws hrun
    obtain ⟨s1, rs1, hw, hrest⟩ := runCommands_cons_some hrun
    rw [List.forall_mem_cons] at hws
    obtain ⟨hphase1, hdigest1, halg1⟩ := runCommand_without_init hphase hws.1 hw
    obtain ⟨hphase2, hdigest2, halg2⟩ := ih s1 t rs1 hphase1 hws.2 hrest
    exact ⟨hphase2, hdigest2.trans hdigest1, halg2.trans halg1⟩

end Sys2Proof.Machine
end

section
/-! Reset (10_state.md R37, 70_reset_and_hazards.md R380). -/

namespace Sys2Proof.Machine

/-- A step whose event is the reset (70_reset_and_hazards.md R380). -/
theorem step_rst {s : State} {rest : List HostEvent} (h : s.input = .rst :: rest) :
    step s = .next (resetEvent { s with input := rest }) := by
  rw [step, h]
  rfl

/-- Settles O1: `resetEvent` writes the three fields and keeps the later events. -/
theorem resetGivesUninitAndNoError : Obligations.ResetGivesUninitAndNoError := by
  refine ⟨⟨rfl, rfl, rfl, rfl⟩, fun s rest hinput => ?_⟩
  exact ⟨_, step_rst hinput, resetEvent_phase _, resetEvent_err _, resetEvent_rsp _, resetEvent_input _⟩

/-- Settles O34: an empty buffer memory, no error, no response, and a phase without a context. -/
theorem resetMeetsInvariant : Obligations.ResetMeetsInvariant := by
  have hphase : State.reset.phase = .uninit := rfl
  have herr : State.reset.err = .ok := rfl
  have hrsp : State.reset.rsp = none := rfl
  exact ⟨Memory.wf_zeroed, by simp [hphase, herr], by simp [portShape, hrsp], by simp [hphase], by simp [hphase]⟩

end Sys2Proof.Machine
end

section
/-! A schedule that keeps only its most recent sixteen words (10_state.md R31): the argument once, for any
recurrence that looks back at most sixteen words, then the three SHA units. -/

namespace Sys2Proof.Machine

/-- A schedule with one more word, the one its recurrence `next` gives. -/
def appendNext {w : Nat} (next : List (BitVec w) → BitVec w) (W : List (BitVec w)) : List (BitVec w) :=
  W ++ [next W]

theorem sha1Expand_eq_iterate (k : Nat) (W : List Word32) :
    sha1Expand k W = (appendNext sha1NextWord)^[k] W := by
  induction k generalizing W with
  | zero => rfl
  | succ k ih => exact ih _

theorem sha256Expand_eq_iterate (k : Nat) (W : List Word32) :
    sha256Expand k W = (appendNext sha256NextWord)^[k] W := by
  induction k generalizing W with
  | zero => rfl
  | succ k ih => exact ih _

theorem sha512Expand_eq_iterate (k : Nat) (W : List Word64) :
    sha512Expand k W = (appendNext sha512NextWord)^[k] W := by
  induction k generalizing W with
  | zero => rfl
  | succ k ih => exact ih _

section
variable {w : Nat} (next : List (BitVec w) → BitVec w) (W : List (BitVec w))

theorem length_iterate_appendNext (k : Nat) : ((appendNext next)^[k] W).length = W.length + k := by
  induction k with
  | zero => rfl
  | succ k ih => rw [Function.iterate_succ_apply', appendNext, List.length_append, ih]; rfl

theorem getD_iterate_appendNext_add {t j : Nat} (hj : t < W.length + j) (m : Nat) :
    ((appendNext next)^[j + m] W).getD t 0 = ((appendNext next)^[j] W).getD t 0 := by
  induction m with
  | zero => rfl
  | succ m ih =>
    have hlt : t < ((appendNext next)^[j + m] W).length := by
      rw [length_iterate_appendNext]
      omega
    rw [← Nat.add_assoc, Function.iterate_succ_apply', appendNext, List.getD_append _ _ _ _ hlt, ih]

/-- A schedule word, once appended, stays. -/
theorem getD_iterate_appendNext {t j k : Nat} (hj : t < W.length + j) (hk : t < W.length + k) :
    ((appendNext next)^[j] W).getD t 0 = ((appendNext next)^[k] W).getD t 0 := by
  obtain h | h := Nat.le_total j k <;> obtain ⟨m, rfl⟩ := Nat.exists_eq_add_of_le h
  · exact (getD_iterate_appendNext_add next W hj m).symm
  · exact getD_iterate_appendNext_add next W hk m

end

/-- A compression's round loop with the window in its state: `step` takes the oldest word of the window, and
the word that enters is the recurrence read off the window. -/
structure RollingUnit (w : Nat) (σ R : Type) where
  regs : σ → R
  window : σ → List (BitVec w)
  step : σ → Nat → σ
  round : Nat → BitVec w → R → R
  next : List (BitVec w) → BitVec w
  nextInWindow : List (BitVec w) → BitVec w
  regs_step : ∀ st t, regs (step st t) = round t ((window st).getD 0 0) (regs st)
  window_step : ∀ st t, window (step st t) = windowShift (window st) (nextInWindow (window st))
  next_eq : ∀ (W : List (BitVec w)) (t : Nat), W.length = 16 + t → next W = nextInWindow (W.drop t)

namespace RollingUnit
variable {w : Nat} {σ R : Type} (u : RollingUnit w σ R)

/-- After `n` rounds the window is the schedule up to word `n + 15`, less its first `n` words. -/
theorem window_foldl {st : σ} (hwin : (u.window st).length = 16) (n : Nat) :
    u.window ((List.range n).foldl u.step st) = ((appendNext u.next)^[n] (u.window st)).drop n := by
  induction n with
  | zero => rfl
  | succ n ih =>
    have hlen := length_iterate_appendNext u.next (u.window st) n
    rw [hwin] at hlen
    rw [List.range_succ, List.foldl_append, List.foldl_cons, List.foldl_nil, u.window_step, ih,
      ← u.next_eq _ n hlen, Function.iterate_succ_apply', appendNext, windowShift, List.drop_drop,
      List.drop_append_of_le_length (by omega)]

/-- The registers after `n` rounds are those of the rounds on a whole schedule of `16 + k` words. -/
theorem regs_foldl {st : σ} (hwin : (u.window st).length = 16) {n k : Nat} (hn : n ≤ 16 + k) :
    u.regs ((List.range n).foldl u.step st) =
      (List.range n).foldl (fun r t => u.round t (((appendNext u.next)^[k] (u.window st)).getD t 0) r)
        (u.regs st) := by
  induction n with
  | zero => rfl
  | succ n ih =>
    have hword : (u.window ((List.range n).foldl u.step st)).getD 0 0 =
        ((appendNext u.next)^[k] (u.window st)).getD n 0 := by
      rw [u.window_foldl hwin, getD_iterate_appendNext u.next (u.window st) (j := k) (k := n) (by omega) (by omega)]
      simp
    rw [List.range_succ, List.foldl_append, List.foldl_append, List.foldl_cons, List.foldl_nil, u.regs_step,
      hword, ih (by omega)]
    rfl

end RollingUnit

/-- A word at most sixteen back is in the window. -/
theorem getD_length_sub {w : Nat} {W : List (BitVec w)} {t : Nat} (h : W.length = 16 + t) (back : Nat)
    (hback : back ≤ 16) : W.getD (W.length - back) 0 = (W.drop t).getD (16 - back) 0 := by
  have hindex : W.length - back = t + (16 - back) := by omega
  rw [hindex, List.getD_eq_getElem?_getD, List.getD_eq_getElem?_getD, List.getElem?_drop]

/-- SHA-1's window (45_sha1_compress.md R232). -/
def sha1RollingUnit : RollingUnit 32 Sha1Rolling Sha1Regs where
  regs := Sha1Rolling.regs
  window := Sha1Rolling.window
  step := sha1RollingRound
  round := sha1RoundWith
  next := sha1NextWord
  nextInWindow V := rotl (V.getD 13 0 ^^^ V.getD 8 0 ^^^ V.getD 2 0 ^^^ V.getD 0 0) 1
  regs_step _ _ := rfl
  window_step _ _ := rfl
  next_eq W t h := by
    rw [sha1NextWord, getD_length_sub h 3 (by decide), getD_length_sub h 8 (by decide),
      getD_length_sub h 14 (by decide), getD_length_sub h 16 (by decide)]

/-- SHA-256's window (46_sha256_compress.md R262). -/
def sha256RollingUnit : RollingUnit 32 (Sha2Rolling 32) (Sha2Regs 32) where
  regs := Sha2Rolling.regs
  window := Sha2Rolling.window
  step := sha256RollingRound
  round := sha256RoundWith
  next := sha256NextWord
  nextInWindow V :=
    sha256SmallSigma1 (V.getD 14 0) + V.getD 9 0 + sha256SmallSigma0 (V.getD 1 0) + V.getD 0 0
  regs_step _ _ := rfl
  window_step _ _ := rfl
  next_eq W t h := by
    rw [sha256NextWord, getD_length_sub h 2 (by decide), getD_length_sub h 7 (by decide),
      getD_length_sub h 15 (by decide), getD_length_sub h 16 (by decide)]

/-- SHA-512's window (47_sha512_compress.md R292). -/
def sha512RollingUnit : RollingUnit 64 (Sha2Rolling 64) (Sha2Regs 64) where
  regs := Sha2Rolling.regs
  window := Sha2Rolling.window
  step := sha512RollingRound
  round := sha512RoundWith
  next := sha512NextWord
  nextInWindow V :=
    sha512SmallSigma1 (V.getD 14 0) + V.getD 9 0 + sha512SmallSigma0 (V.getD 1 0) + V.getD 0 0
  regs_step _ _ := rfl
  window_step _ _ := rfl
  next_eq W t h := by
    rw [sha512NextWord, getD_length_sub h 2 (by decide), getD_length_sub h 7 (by decide),
      getD_length_sub h 15 (by decide), getD_length_sub h 16 (by decide)]

theorem sha1CompressRolling_eq (Hin : Sha1Regs) (M : List Byte) :
    sha1CompressRolling Hin M = sha1Compress Hin M := by
  have hregs := sha1RollingUnit.regs_foldl (st := ⟨Hin, (List.range 16).map (be32word M)⟩)
    (n := 80) (k := 64) rfl (by decide)
  rw [sha1CompressRolling, sha1Compress, sha1Rounds, sha1Schedule, sha1Expand_eq_iterate]
  simp only [sha1RollingUnit] at hregs
  exact congrArg (sha1Add Hin) hregs

theorem sha256CompressRolling_eq (Hin : Sha2Regs 32) (M : List Byte) :
    sha256CompressRolling Hin M = sha256Compress Hin M := by
  have hregs := sha256RollingUnit.regs_foldl (st := ⟨Hin, (List.range 16).map (be32word M)⟩)
    (n := 64) (k := 48) rfl (by decide)
  rw [sha256CompressRolling, sha256Compress, sha256Rounds, sha256Schedule, sha256Expand_eq_iterate]
  simp only [sha256RollingUnit] at hregs
  exact congrArg (sha2Add Hin) hregs

theorem sha512CompressRolling_eq (Hin : Sha2Regs 64) (M : List Byte) :
    sha512CompressRolling Hin M = sha512Compress Hin M := by
  have hregs := sha512RollingUnit.regs_foldl (st := ⟨Hin, (List.range 16).map (be64word M)⟩)
    (n := 80) (k := 64) rfl (by decide)
  rw [sha512CompressRolling, sha512Compress, sha512Rounds, sha512Schedule, sha512Expand_eq_iterate]
  simp only [sha512RollingUnit] at hregs
  exact congrArg (sha2Add Hin) hregs

/-- Settles O54: each unit's round loop is a `RollingUnit`, so its registers are those of the whole schedule. -/
theorem rollingScheduleAgrees : Obligations.RollingScheduleAgrees :=
  ⟨sha1CompressRolling_eq, sha256CompressRolling_eq, sha512CompressRolling_eq⟩

end Sys2Proof.Machine
end

section
/-! The length field of the padding, byte by byte (20_memory.md R55). -/

namespace Sys2Proof.Machine

theorem byteOf_extractLsb' {n k : Nat} (x : BitVec n) (lo : Nat) (hk : k < 8) :
    byteOf (x.extractLsb' lo 64) k = x.extractLsb' (lo + 8 * k) 8 := by
  ext i hi
  simp only [byteOf, BitVec.getElem_extractLsb', BitVec.getLsbD_extractLsb', Nat.add_assoc]
  have : 8 * k + i < 64 := by omega
  simp [this]

/-- `LE64enc` puts byte 0, the least significant, first (40_bit_utilities.md R118). -/
theorem getD_le64enc (x : Word64) {k : Nat} (hk : k < 8) : (le64enc x).getD k 0 = byteOf x k := by
  match k, hk with
  | 0, _ | 1, _ | 2, _ | 3, _ | 4, _ | 5, _ | 6, _ | 7, _ => rfl

/-- `BE64enc` puts byte 7, the most significant, first (40_bit_utilities.md R118). -/
theorem getD_be64enc (x : Word64) {k : Nat} (hk : k < 8) : (be64enc x).getD k 0 = byteOf x (7 - k) := by
  match k, hk with
  | 0, _ | 1, _ | 2, _ | 3, _ | 4, _ | 5, _ | 6, _ | 7, _ => rfl

/-- The high doubleword first: sixteen bytes, the most significant first. -/
theorem getD_be64enc_append (len : BitVec 128) {k : Nat} (hk : k < 16) :
    (be64enc (len.extractLsb' 64 64) ++ be64enc (len.extractLsb' 0 64)).getD k 0 =
      len.extractLsb' (8 * (15 - k)) 8 := by
  have hlength : (be64enc (len.extractLsb' 64 64)).length = 8 := rfl
  by_cases hhigh : k < 8
  · rw [List.getD_append _ _ _ _ (hlength ▸ hhigh), getD_be64enc _ hhigh,
      byteOf_extractLsb' _ _ (by omega)]
    congr 1
    omega
  · rw [List.getD_append_right _ _ _ _ (by omega), hlength, getD_be64enc _ (by omega),
      byteOf_extractLsb' _ _ (by omega)]
    congr 1
    omega

/-- Settles O15, by the unit: MD5's eight bytes, the eight of the other 32-bit units, SHA-512's sixteen. -/
theorem lengthFieldByteOrder : Obligations.LengthFieldByteOrder := by
  intro alg len
  refine ⟨length_lengthField alg len, fun k hk => ?_⟩
  have hle (hk : k < 8) : (le64enc (len.extractLsb' 0 64)).getD k 0 = len.extractLsb' (8 * k) 8 := by
    rw [getD_le64enc _ hk, byteOf_extractLsb' _ _ hk, Nat.zero_add]
  have hbe (hk : k < 8) : (be64enc (len.extractLsb' 0 64)).getD k 0 = len.extractLsb' (8 * (7 - k)) 8 := by
    rw [getD_be64enc _ hk, byteOf_extractLsb' _ _ (by omega), Nat.zero_add]
  cases alg with
  | md5 => exact hle hk
  | sha1 | sha224 | sha256 => exact hbe hk
  | sha384 | sha512 | sha512_224 | sha512_256 => exact getD_be64enc_append len hk

end Sys2Proof.Machine
end

section
/-! The core never stops (20_memory.md R53): from a state that meets the invariant, every event is answered. -/

namespace Sys2Proof.Machine

/-- `BUFLEN` of an ACTIVE context is an address of `BUF` (10_state.md R29). -/
theorem State.Inv.buflen_in_range {s : State} (h : s.Inv) (hphase : s.phase = .active) : s.buflen.toNat < 256 := by
  obtain ⟨-, -, -, hactive, -⟩ := h
  have hlt := (hactive hphase).1
  have hB := two_blocks_le s.alg
  omega

theorem exec_update_of_ne_active (data : Byte) {s : State} (h : s.phase ≠ .active) :
    exec (.update data) s = .next (raise .invalidState s) := by
  rw [exec_update, execUpdate_eq, if_pos h]

theorem exec_finalize_of_ne_active {s : State} (h : s.phase ≠ .active) :
    exec .finalize s = .next (raise .invalidState s) := by
  rw [exec_finalize, execFinalize_eq, if_pos h]

/-- TOHEX in phase DONE (48_digest_format.md R326). -/
theorem exec_toHex_done {s : State} (h : s.phase = .done) :
    exec .toHex s = .next (respond .ok (toHexString (digestPrefix s.digest s.alg.digestBytes)) s) := by
  rw [exec_toHex, execToHex, if_neg (not_not.mpr h)]

/-- A command answers a next state unless it is ACTIVE with `BUFLEN` no address of `BUF`. -/
theorem exec_answers (i : Instr) {s : State} (hrange : s.phase = .active → s.buflen.toNat < 256) :
    ∃ t, exec i s = .next t := by
  rcases instr_cases i with ⟨alg, rfl⟩ | ⟨selector, rfl⟩ | ⟨data, rfl⟩ | rfl | rfl
  · exact ⟨_, exec_initCommandOf alg s⟩
  · exact ⟨_, exec_initUndef selector s⟩
  · by_cases hphase : s.phase = .active
    · cases hover : lengthWouldOverflow s.alg s.len with
      | true => exact ⟨_, exec_update_overflow data hphase hover⟩
      | false => exact ⟨_, exec_update_room data hphase hover (hrange hphase)⟩
    · exact ⟨_, exec_update_of_ne_active data hphase⟩
  · by_cases hphase : s.phase = .active
    · exact ⟨_, exec_finalize_active hphase (hrange hphase)⟩
    · exact ⟨_, exec_finalize_of_ne_active hphase⟩
  · by_cases hphase : s.phase = .done
    · exact ⟨_, exec_toHex_done hphase⟩
    · exact ⟨_, exec_toHex_of_ne_done hphase⟩

theorem runCommand_error {w : Word16} {e : IllegalWord} (h : decode w = .error e) (s : State) :
    runCommand w s = .next (raise .illegalCommand s) := by
  rw [runCommand, h]

theorem runCommand_ok {w : Word16} {i : Instr} (h : decode w = .ok i) (s : State) : runCommand w s = exec i s := by
  rw [runCommand, h]

/-- A step that has an event takes the first one (log entry 4). -/
theorem step_cons {s : State} {e : HostEvent} {rest : List HostEvent} (h : s.input = e :: rest) :
    step s = runEvent e { s with input := rest } := by
  rw [step, h]

/-- Settles O36: idle, a reset and an illegal word are always answered, and the invariant keeps `BUFLEN` in
range for the commands. -/
theorem coreNeverStops : Obligations.CoreNeverStops := by
  intro s hinv
  cases hin : s.input with
  | nil => exact ⟨s, by rw [step, hin]⟩
  | cons e rest =>
    rw [step_cons hin]
    cases e with
    | rst => exact ⟨_, rfl⟩
    | cmd w =>
      rw [runEvent]
      cases hw : decode w with
      | error => exact ⟨_, runCommand_error hw _⟩
      | ok i =>
        rw [runCommand_ok hw]
        exact exec_answers i hinv.buflen_in_range

end Sys2Proof.Machine
end

section
/-! Sequences of commands (20_memory.md R63), also as events of the model's stream (log entry 4). -/

namespace Sys2Proof.Machine

theorem updated_withInput (data : Byte) (s : State) (events : List HostEvent) :
    updated data { s with input := events } = { updated data s with input := events } := by
  unfold updated
  dsimp only
  split <;> rfl

/-- A command does not look at the events still to come. -/
theorem exec_withInput {i : Instr} {s t : State} (events : List HostEvent) (h : exec i s = .next t) :
    exec i { s with input := events } = .next { t with input := events } := by
  rcases exec_cases h with ⟨alg, rfl, rfl⟩ | ⟨selector, rfl, rfl⟩ | ⟨data, rfl, h⟩ | ⟨rfl, h⟩ | ⟨rfl, h⟩
  · exact exec_initCommandOf alg _
  · exact exec_initUndef selector _
  · rcases execUpdate_cases h with ⟨hphase, rfl⟩ | ⟨hphase, hover, rfl⟩ | ⟨hphase, hroom, hrange, rfl⟩
    · exact exec_update_of_ne_active data hphase
    · exact exec_update_overflow data hphase hover
    · have hexec := exec_update_room data (s := { s with input := events }) hphase hroom hrange
      rw [updated_withInput] at hexec
      exact hexec
  · rcases execFinalize_cases h with ⟨hphase, rfl⟩ | ⟨hphase, hrange, rfl⟩
    · exact exec_finalize_of_ne_active hphase
    · exact exec_finalize_active hphase hrange
  · rcases execToHex_cases h with ⟨hphase, rfl⟩ | ⟨hphase, rfl⟩
    · exact exec_toHex_of_ne_done hphase
    · exact exec_toHex_done hphase

theorem runCommand_withInput {w : Word16} {s t : State} (events : List HostEvent) (h : runCommand w s = .next t) :
    runCommand w { s with input := events } = .next { t with input := events } := by
  cases hw : decode w with
  | error =>
    rw [runCommand_error hw] at h ⊢
    cases h
    rfl
  | ok i =>
    rw [runCommand_ok hw] at h ⊢
    exact exec_withInput events h

theorem runCommands_append (ws ws' : List Word16) (s : State) :
    runCommands (ws ++ ws') s =
      (runCommands ws s).bind fun p => (runCommands ws' p.1).map fun q => (q.1, p.2 ++ q.2) := by
  induction ws generalizing s with
  | nil => simp [runCommands]
  | cons w ws ih =>
    simp only [List.cons_append, runCommands]
    cases runCommand w s with
    | next s1 =>
      simp only [ih]
      cases runCommands ws s1 with
      | none => rfl
      | some p =>
        simp only [Option.bind_some]
        cases runCommands ws' p.1 <;> simp
    | fault => rfl
    | refused => rfl

/-- One step more of the machine, when the first one answers. -/
theorem run_succ {k : Nat} {s t : State} (h : step s = .next t) :
    Host.Core.run Sys2Proof.core (k + 1) s = Host.Core.run Sys2Proof.core k t := by
  have hstep : Sys2Proof.core.step s = .next t := h
  simp only [Host.Core.run, hstep]

/-- As many steps as words run the words as events and leave the later events. -/
theorem run_of_runCommands {ws : List Word16} (rest : List HostEvent) {s t : State} {rs : List Response}
    (h : runCommands ws s = some (t, rs)) :
    Host.Core.run Sys2Proof.core ws.length { s with input := ws.map .cmd ++ rest } = .next { t with input := rest } := by
  induction ws generalizing s rs with
  | nil =>
    cases h
    rfl
  | cons w ws ih =>
    obtain ⟨s1, rs1, hw, hrest⟩ := runCommands_cons_some h
    have hstep : step { s with input := (w :: ws).map .cmd ++ rest } =
        .next { s1 with input := ws.map .cmd ++ rest } := by
      have hcmd := runCommand_withInput (ws.map .cmd ++ rest) hw
      rw [step_cons rfl]
      exact hcmd
    exact (run_succ hstep).trans (ih hrest)

/-- Settles O38: composition by induction on the first sequence, and the stream's steps by induction on the
words, one command a step. -/
theorem sequencesCompose : Obligations.SequencesCompose :=
  ⟨runCommands_append, fun _ rest _ _ _ h => run_of_runCommands rest h⟩

end Sys2Proof.Machine
end

section
/-! What a compression reads: the architectural words of `H` and the bytes of one block (20_memory.md R60). -/

namespace Sys2Proof.Machine

/-- Two register files hold the same `n` state words of `w` bits (10_state.md R22). -/
def sameWords (w n : Nat) (h h' : Vector Word64 8) : Prop :=
  ∀ k : Fin 8, k.val < n → h[k].setWidth w = h'[k].setWidth w

/-- Two byte sequences have the same first `n` bytes. -/
def sameBlock (n : Nat) (M M' : List Byte) : Prop := ∀ j, j < n → M.getD j 0 = M'.getD j 0

theorem sameBlock.blockByte_eq {n i : Nat} {M M' : List Byte} (h : sameBlock n M M') (hi : i < n) :
    blockByte M i = blockByte M' i := h i hi

section Loads
variable {M M' : List Byte}

theorem le32words_eq_of_sameBlock (h : sameBlock 64 M M') :
    (List.range 16).map (le32word M) = (List.range 16).map (le32word M') := by
  refine List.map_congr_left fun j hj => ?_
  rw [List.mem_range] at hj
  unfold le32word
  congr 1 <;> exact h.blockByte_eq (by omega)

theorem be32words_eq_of_sameBlock (h : sameBlock 64 M M') :
    (List.range 16).map (be32word M) = (List.range 16).map (be32word M') := by
  refine List.map_congr_left fun j hj => ?_
  rw [List.mem_range] at hj
  unfold be32word
  congr 1 <;> exact h.blockByte_eq (by omega)

theorem be64words_eq_of_sameBlock (h : sameBlock 128 M M') :
    (List.range 16).map (be64word M) = (List.range 16).map (be64word M') := by
  refine List.map_congr_left fun j hj => ?_
  rw [List.mem_range] at hj
  unfold be64word
  congr 1 <;> exact h.blockByte_eq (by omega)

end Loads

/-- A compression reads the first `B` bytes of its block and no others (20_memory.md R60). -/
theorem compress_eq_of_sameBlock {alg : Alg} (h : Vector Word64 8) {M M' : List Byte}
    (hM : sameBlock alg.blockSize M M') : compress alg h M = compress alg h M' := by
  unfold Alg.blockSize at hM
  unfold compress
  cases hunit : alg.unit <;> simp only [hunit] at hM ⊢
  case md5Compress => simp only [md5Compress, md5Steps, md5Load, le32words_eq_of_sameBlock hM]
  case sha1Compress => simp only [sha1Compress, sha1Rounds, sha1Schedule, be32words_eq_of_sameBlock hM]
  case sha256Compress => simp only [sha256Compress, sha256Rounds, sha256Schedule, be32words_eq_of_sameBlock hM]
  case sha512Compress => simp only [sha512Compress, sha512Rounds, sha512Schedule, be64words_eq_of_sameBlock hM]

section Words
variable {h h' : Vector Word64 8}

theorem md5In_eq_of_sameWords (hw : sameWords 32 4 h h') : md5In h = md5In h' := by
  simp only [md5In, Md5Regs.mk.injEq]
  exact ⟨hw 0 (by decide), hw 1 (by decide), hw 2 (by decide), hw 3 (by decide)⟩

theorem sha1In_eq_of_sameWords (hw : sameWords 32 5 h h') : sha1In h = sha1In h' := by
  simp only [sha1In, Sha1Regs.mk.injEq]
  exact ⟨hw 0 (by decide), hw 1 (by decide), hw 2 (by decide), hw 3 (by decide), hw 4 (by decide)⟩

theorem sha256In_eq_of_sameWords (hw : sameWords 32 8 h h') : sha256In h = sha256In h' := by
  simp only [sha256In, Sha2Regs.mk.injEq]
  exact ⟨hw 0 (by decide), hw 1 (by decide), hw 2 (by decide), hw 3 (by decide), hw 4 (by decide),
    hw 5 (by decide), hw 6 (by decide), hw 7 (by decide)⟩

/-- Words of the registers' own width are the registers. -/
theorem eq_of_sameWords (hw : sameWords 64 8 h h') : h = h' := by
  ext i hi : 1
  simpa using hw ⟨i, hi⟩ hi

end Words

/-- The state words after a compression depend on the architectural words before it alone, not on bits 63:32
of a 32-bit word nor on `H[n..7]` (10_state.md R22). -/
theorem compress_word_eq_of_sameWords {alg : Alg} {h h' : Vector Word64 8} (M : List Byte)
    (hw : sameWords alg.wordBits alg.stateWords h h') {k : Fin 8} (hk : k.val < alg.stateWords) :
    (compress alg h M)[k] = (compress alg h' M)[k] := by
  unfold Alg.wordBits Alg.stateWords at hw
  unfold Alg.stateWords at hk
  unfold compress
  cases hunit : alg.unit <;> simp only [hunit] at hw hk ⊢
  case md5Compress =>
    rw [md5In_eq_of_sameWords hw]
    match k, hk with | 0, _ | 1, _ | 2, _ | 3, _ => rfl
  case sha1Compress =>
    rw [sha1In_eq_of_sameWords hw]
    match k, hk with | 0, _ | 1, _ | 2, _ | 3, _ | 4, _ => rfl
  case sha256Compress => rw [sha256In_eq_of_sameWords hw]
  case sha512Compress => rw [eq_of_sameWords hw]

/-- Settles O53: `H[n..7]` and the unused part are kept, and a change of block and then of registers is not
seen. -/
theorem compressUsesOnlyItsInputs : Obligations.CompressUsesOnlyItsInputs := by
  intro alg h h' M M'
  refine ⟨compress_unused_word alg h M, unusedWordsZero_compress M, fun hw hM k hk => ?_⟩
  rw [compress_eq_of_sameBlock h hM]
  exact compress_word_eq_of_sameWords M' hw hk

end Sys2Proof.Machine
end

section
/-! The fields of a command word, and the decoder and encoder as inverses (30_encoding.md R81 to R88). -/

namespace Sys2Proof

@[simp] theorem opField_commandWord (op alg : BitVec 4) (data : Byte) : opField (commandWord op alg data) = op := by
  rw [opField, commandWord, BitVec.extractLsb'_append_eq_of_le (by decide)]
  exact BitVec.extractLsb'_append_eq_left

@[simp] theorem algField_commandWord (op alg : BitVec 4) (data : Byte) : algField (commandWord op alg data) = alg := by
  rw [algField, commandWord, BitVec.extractLsb'_append_eq_of_le (by decide)]
  exact BitVec.extractLsb'_append_eq_right

@[simp] theorem dataField_commandWord (op alg : BitVec 4) (data : Byte) : dataField (commandWord op alg data) = data :=
  BitVec.extractLsb'_append_eq_right

/-- A word is its three fields (R81). -/
theorem commandWord_fields (w : Word16) : commandWord (opField w) (algField w) (dataField w) = w := by
  have hhigh : opField w ++ algField w = w.extractLsb' 8 8 :=
    BitVec.extractLsb'_append_extractLsb'_eq_extractLsb' rfl
  rw [commandWord, hhigh, dataField]
  exact BitVec.extractLsb'_append_extractLsb'

theorem word_eq_iff_fields {w w' : Word16} :
    w = w' ↔ opField w = opField w' ∧ algField w = algField w' ∧ dataField w = dataField w' := by
  refine ⟨fun h => by simp [h], fun ⟨hop, halg, hdata⟩ => ?_⟩
  rw [← commandWord_fields w, hop, halg, hdata, commandWord_fields]

/-! One equation of the decoder per value of `OP` (R86). -/

/-- `OP` is one of the four defined values, or reserved (R82, R87 (a)). -/
theorem op_cases (op : BitVec 4) : op = 1 ∨ op = 2 ∨ op = 3 ∨ op = 4 ∨ op = 0 ∨ 5 ≤ op.toNat := by
  revert op; decide

theorem decode_of_op_init {w : Word16} (h : opField w = 1) :
    decode w = if dataField w = 0 then .ok (initRow (algField w)) else .error .initData := by
  simp [decode, h]

theorem decode_of_op_update {w : Word16} (h : opField w = 2) :
    decode w = if algField w = 0 then .ok (.update (dataField w)) else .error .updateAlg := by
  simp [decode, h]

theorem decode_of_op_finalize {w : Word16} (h : opField w = 3) :
    decode w = if algField w = 0 ∧ dataField w = 0 then .ok .finalize else .error .formatZField := by
  simp [decode, h]

theorem decode_of_op_toHex {w : Word16} (h : opField w = 4) :
    decode w = if algField w = 0 ∧ dataField w = 0 then .ok .toHex else .error .formatZField := by
  simp [decode, h]

theorem decode_of_op_reserved {w : Word16} (h : opField w = 0 ∨ 5 ≤ (opField w).toNat) :
    decode w = .error .reservedOp := by
  have hne : opField w ≠ 1#4 ∧ opField w ≠ 2#4 ∧ opField w ≠ 3#4 ∧ opField w ≠ 4#4 := by
    revert h; generalize opField w = op; revert op; decide
  obtain ⟨h1, h2, h3, h4⟩ := hne
  simp [decode, h1, h2, h3, h4]

theorem ok_if_eq_ok_iff {c : Prop} [Decidable c] {i j : Instr} {e : IllegalWord} :
    (if c then .ok i else .error e : Except IllegalWord Instr) = .ok j ↔ c ∧ i = j := by
  by_cases hc : c <;> simp [hc]

theorem exists_ok_if_eq_error_iff {c : Prop} [Decidable c] {i : Instr} {e : IllegalWord} :
    (∃ e', (if c then .ok i else .error e : Except IllegalWord Instr) = .error e') ↔ ¬ c := by
  by_cases hc : c <;> simp [hc]

/-! The INIT row of a selector (R84). -/

theorem initRow_wf (selector : BitVec 4) : (initRow selector).wf = true := by
  revert selector; decide

theorem encode_initRow (selector : BitVec 4) : encode (initRow selector) = commandWord 1 selector 0 := by
  revert selector; decide

theorem initRow_of_undefined {selector : BitVec 4} (h : 8 ≤ selector.toNat) : initRow selector = .initUndef selector := by
  revert selector; decide

/-- The decoder reads the encoding of every well-formed command back. -/
theorem decode_encode {i : Instr} (hwf : i.wf = true) : decode (encode i) = .ok i := by
  rcases Machine.instr_cases i with ⟨alg, rfl⟩ | ⟨selector, rfl⟩ | ⟨data, rfl⟩ | rfl | rfl
  · cases alg <;> rfl
  · have hrow := initRow_of_undefined (of_decide_eq_true hwf)
    rw [encode, decode_of_op_init (by simp)]
    simp [hrow]
  · rw [encode, decode_of_op_update (by simp)]
    simp
  · rfl
  · rfl

/-- A legal word is the encoding of the well-formed command it decodes to. -/
theorem wf_and_encode_of_decode {w : Word16} {i : Instr} (h : decode w = .ok i) : i.wf = true ∧ encode i = w := by
  rcases op_cases (opField w) with hop | hop | hop | hop | hop
  · rw [decode_of_op_init hop, ok_if_eq_ok_iff] at h
    obtain ⟨hdata, rfl⟩ := h
    exact ⟨initRow_wf _, by rw [encode_initRow, ← hop, ← hdata, commandWord_fields]⟩
  · rw [decode_of_op_update hop, ok_if_eq_ok_iff] at h
    obtain ⟨halg, rfl⟩ := h
    exact ⟨rfl, by simp [word_eq_iff_fields, encode, hop, halg]⟩
  · rw [decode_of_op_finalize hop, ok_if_eq_ok_iff] at h
    obtain ⟨hz, rfl⟩ := h
    exact ⟨rfl, by simp [word_eq_iff_fields, encode, hop, hz]⟩
  · rw [decode_of_op_toHex hop, ok_if_eq_ok_iff] at h
    obtain ⟨hz, rfl⟩ := h
    exact ⟨rfl, by simp [word_eq_iff_fields, encode, hop, hz]⟩
  · rw [decode_of_op_reserved hop] at h
    cases h

theorem decode_eq_ok_iff {w : Word16} {i : Instr} : decode w = .ok i ↔ i.wf = true ∧ encode i = w :=
  ⟨wf_and_encode_of_decode, fun ⟨hwf, hw⟩ => hw ▸ decode_encode hwf⟩

/-- Settles O42: each direction is a case split, on the command and on `OP`. -/
theorem decodeAndEncodeAgree : Obligations.DecodeAndEncodeAgree :=
  ⟨fun _ => decode_encode, fun _ _ => wf_and_encode_of_decode⟩

/-- Settles O44: sixteen closed facts, each one evaluation of the decoder. -/
theorem sampleWordsDecode : Obligations.SampleWordsDecode := by
  unfold Obligations.SampleWordsDecode
  decide

end Sys2Proof
end

section
/-! The command table as masks and matches (30_encoding.md R88), and the illegal words (R87). -/

namespace Sys2Proof

theorem OpcodeRow.selects_iff {row : OpcodeRow} {w : Word16} :
    row.selects w = true ↔ w &&& row.mask = row.pattern := beq_iff_eq

/-- The match of a row, field by field. -/
theorem OpcodeRow.selects_iff_fields {row : OpcodeRow} {w : Word16} :
    row.selects w = true ↔
      opField w &&& opField row.mask = opField row.pattern ∧
      algField w &&& algField row.mask = algField row.pattern ∧
      dataField w &&& dataField row.mask = dataField row.pattern := by
  rw [OpcodeRow.selects_iff, word_eq_iff_fields]
  simp only [opField, algField, dataField, BitVec.extractLsb'_and]

/-- The commands without an operand: one word each. -/
def fixedCommands : List Instr :=
  [.initMd5, .initSha1, .initSha224, .initSha256, .initSha384, .initSha512, .initSha512_224, .initSha512_256,
   .finalize, .toHex]

/-- The row of a command without an operand: its one word under a full mask. -/
def fixedRow (i : Instr) : OpcodeRow := ⟨i.mnemonic, encode i, 0xFFFF⟩

/-- The row of the undefined selectors. -/
def undefRow : OpcodeRow := ⟨"INIT.UNDEF", 0x1800, 0xF8FF⟩

/-- The row of UPDATE. -/
def updateRow : OpcodeRow := ⟨"UPDATE", 0x2000, 0xFF00⟩

theorem opcodeTable_rows :
    ∀ row ∈ opcodeTable, (∃ i ∈ fixedCommands, row = fixedRow i) ∨ row = undefRow ∨ row = updateRow := by decide

theorem mnemonic_mem_opcodeTable (i : Instr) : ∃ row ∈ opcodeTable, row.mnemonic = i.mnemonic := by
  cases i <;> simp [opcodeTable, Instr.mnemonic]

theorem nodup_mnemonics : (opcodeTable.map OpcodeRow.mnemonic).Nodup := by decide

theorem wf_of_mem_fixedCommands : ∀ i ∈ fixedCommands, i.wf = true := by decide

theorem eq_of_mnemonic_eq (j : Instr) : ∀ i ∈ fixedCommands, j.mnemonic = i.mnemonic → j = i := by
  have hundef : ∀ i ∈ fixedCommands, "INIT.UNDEF" ≠ i.mnemonic := by decide
  have hupdate : ∀ i ∈ fixedCommands, "UPDATE" ≠ i.mnemonic := by decide
  cases j with
  | initUndef selector => exact fun i hi h => absurd h (hundef i hi)
  | update data => exact fun i hi h => absurd h (hupdate i hi)
  | _ => decide

/-- `w` decodes to a command of the mnemonic. -/
def decodesToRow (w : Word16) (mnemonic : String) : Prop := ∃ i, decode w = .ok i ∧ i.mnemonic = mnemonic

/-- A full mask selects the encoding of its command and no other word. -/
theorem fixedRow_selects_iff (w : Word16) {i : Instr} (hi : i ∈ fixedCommands) :
    (fixedRow i).selects w = true ↔ decodesToRow w (fixedRow i).mnemonic := by
  have hmask : w &&& (fixedRow i).mask = w := BitVec.and_allOnes
  rw [OpcodeRow.selects_iff, hmask]
  constructor
  · rintro rfl
    exact ⟨i, decode_encode (wf_of_mem_fixedCommands i hi), rfl⟩
  · rintro ⟨j, hj, hmnemonic⟩
    obtain rfl := eq_of_mnemonic_eq j i hi hmnemonic
    exact (wf_and_encode_of_decode hj).2.symm

/-- `INIT.UNDEF`: the selectors with their high bit set. -/
theorem undefRow_selects_iff (w : Word16) : undefRow.selects w = true ↔ decodesToRow w undefRow.mnemonic := by
  have hfull : ∀ op : BitVec 4, op &&& 0xF = op := fun _ => BitVec.and_allOnes
  have hhigh : ∀ alg : BitVec 4, alg &&& 8 = 8 ↔ 8 ≤ alg.toNat := by decide
  have hfields : undefRow.selects w = true ↔ opField w = 1 ∧ 8 ≤ (algField w).toNat ∧ dataField w = 0 := by
    rw [← hhigh, ← hfull (opField w), ← BitVec.and_allOnes (x := dataField w)]
    exact OpcodeRow.selects_iff_fields
  rw [hfields]
  constructor
  · rintro ⟨hop, halg, hdata⟩
    exact ⟨_, by rw [decode_of_op_init hop, if_pos hdata, initRow_of_undefined halg], rfl⟩
  · rintro ⟨j, hj, hmnemonic⟩
    cases j with
    | initUndef selector =>
      obtain ⟨hwf, rfl⟩ := wf_and_encode_of_decode hj
      simpa [encode] using of_decide_eq_true hwf
    | _ => simp [Instr.mnemonic, undefRow] at hmnemonic

/-- `UPDATE`: every data byte. -/
theorem updateRow_selects_iff (w : Word16) : updateRow.selects w = true ↔ decodesToRow w updateRow.mnemonic := by
  have hfull : ∀ x : BitVec 4, x &&& 0xF = x := fun _ => BitVec.and_allOnes
  have hfields : updateRow.selects w = true ↔ opField w = 2 ∧ algField w = 0 := by
    rw [← hfull (opField w), ← hfull (algField w)]
    exact OpcodeRow.selects_iff_fields.trans
      ⟨fun ⟨hop, halg, _⟩ => ⟨hop, halg⟩, fun ⟨hop, halg⟩ => ⟨hop, halg, BitVec.and_zero⟩⟩
  rw [hfields]
  constructor
  · rintro ⟨hop, halg⟩
    exact ⟨_, by rw [decode_of_op_update hop, if_pos halg], rfl⟩
  · rintro ⟨j, hj, hmnemonic⟩
    cases j with
    | update data =>
      obtain ⟨-, rfl⟩ := wf_and_encode_of_decode hj
      simp [encode]
    | _ => simp [Instr.mnemonic, updateRow] at hmnemonic

/-- A row selects exactly the words that decode to its command. -/
theorem selects_iff_decodesToRow (w : Word16) {row : OpcodeRow} (hrow : row ∈ opcodeTable) :
    row.selects w = true ↔ decodesToRow w row.mnemonic := by
  rcases opcodeTable_rows row hrow with ⟨i, hi, rfl⟩ | rfl | rfl
  · exact fixedRow_selects_iff w hi
  · exact undefRow_selects_iff w
  · exact updateRow_selects_iff w

/-- A word is illegal exactly when no row selects it. -/
theorem decode_error_iff_unselected (w : Word16) :
    (∃ e, decode w = .error e) ↔ ∀ row ∈ opcodeTable, row.selects w = false := by
  constructor
  · rintro ⟨e, he⟩ row hrow
    rw [Bool.eq_false_iff, ne_eq, selects_iff_decodesToRow w hrow]
    rintro ⟨i, hi, -⟩
    simp [he] at hi
  · intro hnone
    cases hw : decode w with
    | error e => exact ⟨e, rfl⟩
    | ok i =>
      obtain ⟨row, hrow, hmnemonic⟩ := mnemonic_mem_opcodeTable i
      have hsel := (selects_iff_decodesToRow w hrow).mpr ⟨i, hw, hmnemonic.symm⟩
      simp [hnone row hrow] at hsel

/-- The rows that select a word have the mnemonic of its command, which stands in the table once. -/
theorem selected_rows_le_one (w : Word16) : (opcodeTable.filter fun row => row.selects w).length ≤ 1 := by
  rw [← List.countP_eq_length_filter]
  cases hw : decode w with
  | error e =>
    have hnone := (decode_error_iff_unselected w).mp ⟨e, hw⟩
    have hzero := List.countP_eq_zero.mpr fun row hrow => Bool.eq_false_iff.mp (hnone row hrow)
    exact hzero.trans_le (Nat.zero_le 1)
  | ok i =>
    have hmnemonic : ∀ row ∈ opcodeTable, row.selects w = true → (row.mnemonic == i.mnemonic) = true := by
      intro row hrow hsel
      obtain ⟨j, hj, hrowName⟩ := (selects_iff_decodesToRow w hrow).mp hsel
      obtain rfl : i = j := by simpa [hw] using hj
      exact beq_iff_eq.mpr hrowName.symm
    calc opcodeTable.countP (fun row => row.selects w)
        ≤ opcodeTable.countP (fun row => row.mnemonic == i.mnemonic) := List.countP_mono_left hmnemonic
      _ = (opcodeTable.map OpcodeRow.mnemonic).count i.mnemonic := (List.countP_map (p := (· == i.mnemonic))).symm
      _ ≤ 1 := List.nodup_iff_count_le_one.mp nodup_mnemonics i.mnemonic

/-- Settles O43: each row by its masks, no two rows by the mnemonics, an unselected word by the decoder. -/
theorem opcodeTableDecides : Obligations.OpcodeTableDecides := by
  intro w
  refine ⟨fun row hrow => selects_iff_decodesToRow w hrow, selected_rows_le_one w, fun hnone s => ?_⟩
  obtain ⟨e, he⟩ := (decode_error_iff_unselected w).mpr hnone
  exact Machine.runCommand_error he s

/-- The four cases of R87, by the value of `OP`. -/
theorem decode_error_iff (w : Word16) :
    ((opField w = 0 ∨ 5 ≤ (opField w).toNat) ∨ (opField w = 1 ∧ dataField w ≠ 0) ∨
      (opField w = 2 ∧ algField w ≠ 0) ∨
      ((opField w = 3 ∨ opField w = 4) ∧ (algField w ≠ 0 ∨ dataField w ≠ 0))) ↔
      ∃ e, decode w = .error e := by
  rcases op_cases (opField w) with hop | hop | hop | hop | hop
  · rw [decode_of_op_init hop, exists_ok_if_eq_error_iff]
    simp [hop]
  · rw [decode_of_op_update hop, exists_ok_if_eq_error_iff]
    simp [hop]
  · rw [decode_of_op_finalize hop, exists_ok_if_eq_error_iff, not_and_or]
    simp [hop]
  · rw [decode_of_op_toHex hop, exists_ok_if_eq_error_iff, not_and_or]
    simp [hop]
  · exact iff_of_true (.inl hop) ⟨_, decode_of_op_reserved hop⟩

/-- Settles O28: the four cases are the decoder's errors, the errors the words no row selects, and each raises. -/
theorem illegalWordsRaise : Obligations.IllegalWordsRaise := by
  intro w s
  refine ⟨decode_error_iff w, decode_error_iff_unselected w, fun ⟨e, he⟩ => ?_⟩
  exact Machine.runCommand_error he s

/-- Settles O37: a step takes the first event and runs it; with no event it is idle. -/
theorem stepRunsDecodedCommand : Obligations.StepRunsDecodedCommand := by
  intro s w rest
  refine ⟨fun i hin hw => ?_, fun e hin hw => ?_, fun hin => ?_⟩
  · rw [Machine.step_cons hin]
    exact Machine.runCommand_ok hw _
  · rw [Machine.step_cons hin]
    exact Machine.runCommand_error hw _
  · rw [Machine.step, hin]

end Sys2Proof
end

section
/-! What a command responds, and how the ports carry it (30_encoding.md R90 to R93). -/

namespace Sys2Proof.Machine

/-- The payload vector as a number, its base-256 digits the payload bytes from byte 0 up (R90). -/
def payloadNat (data : List Byte) : Nat := data.foldr (fun b n => b.toNat + 256 * n) 0

theorem payloadNat_cons (b : Byte) (data : List Byte) : payloadNat (b :: data) = b.toNat + 256 * payloadNat data := rfl

theorem payloadNat_lt (data : List Byte) : payloadNat data < 2 ^ (8 * data.length) := by
  induction data with
  | nil => simp [payloadNat]
  | cons b data ih =>
    have hb := b.isLt
    have hpow : 2 ^ (8 * (b :: data).length) = 256 * 2 ^ (8 * data.length) := by
      rw [List.length_cons, Nat.mul_add, Nat.pow_add, Nat.mul_comm]
    rw [payloadNat_cons]
    omega

theorem payloadNat_lt_of_le {data : List Byte} {n : Nat} (h : 8 * data.length ≤ n) : payloadNat data < 2 ^ n :=
  (payloadNat_lt data).trans_le (Nat.pow_le_pow_right Nat.two_pos h)

theorem payloadNat_byte (data : List Byte) (k : Nat) :
    payloadNat data >>> (8 * k) % 2 ^ 8 = (data.getD k 0).toNat := by
  induction data generalizing k with
  | nil => simp [payloadNat]
  | cons b data ih =>
    have hb := b.isLt
    cases k with
    | zero => simp [payloadNat_cons]; omega
    | succ k =>
      have hshift : payloadNat (b :: data) >>> 8 = payloadNat data := by
        rw [payloadNat_cons, Nat.shiftRight_eq_div_pow]; omega
      rw [Nat.mul_succ, Nat.add_comm, Nat.shiftRight_add, hshift, ih, List.getD_cons_succ]

/-- A payload of at most 128 bytes fits the port. -/
theorem toNat_payloadVector {data : List Byte} (h : data.length ≤ 128) :
    (payloadVector data).toNat = payloadNat data := by
  have hvector : payloadVector data = BitVec.ofNat 1024 (payloadNat data) := rfl
  rw [hvector, BitVec.toNat_ofNat]
  apply Nat.mod_eq_of_lt
  apply payloadNat_lt_of_le
  omega

/-- Byte `k` of the payload stands in bits `[8k+7:8k]`. -/
theorem payloadVector_byte {data : List Byte} (h : data.length ≤ 128) (k : Nat) :
    (payloadVector data).extractLsb' (8 * k) 8 = data.getD k 0 := by
  apply BitVec.eq_of_toNat_eq
  rw [BitVec.extractLsb'_toNat, toNat_payloadVector h, payloadNat_byte]

/-- The bits above the payload are zero (log entry 6). -/
theorem payloadVector_above {data : List Byte} (h : data.length ≤ 128) {k : Nat} (hk : 8 * data.length ≤ k) :
    (payloadVector data).getLsbD k = false := by
  rw [BitVec.getLsbD, toNat_payloadVector h]
  exact Nat.testBit_lt_two_pow (payloadNat_lt_of_le hk)

/-- The payload bytes of an OK response to a command, 30_encoding.md R91: the digest for FINALIZE, its
characters for TOHEX. -/
def payloadBytes (alg : Alg) : Except IllegalWord Instr → Nat
  | .ok .finalize => alg.digestBytes
  | .ok .toHex => 2 * alg.digestBytes
  | .ok _ => 0
  | .error _ => 0

/-- A well-shaped response to word `w` in state `s`. -/
def respondsTo (w : Word16) (s : State) (r : Response) : Prop :=
  responseShape r ∧ (r.status = .ok → r.data.length = payloadBytes s.alg (decode w))

theorem respondsTo_raise (w : Word16) (s : State) (e : ErrorKind) :
    ∃ r, (raise e s).rsp = some r ∧ respondsTo w s r :=
  ⟨_, raise_rsp e s, responseShape_empty _, fun h => absurd h (errorStatus_ne_ok e)⟩

theorem respondsTo_ok {w : Word16} {s : State} {data : List Byte} {n : Nat}
    (hw : payloadBytes s.alg (decode w) = n) (hlen : data.length = n) (hn : n ≤ 128) :
    respondsTo w s { status := .ok, len := BitVec.ofNat 8 n, data := data } :=
  ⟨responseShape_ok hlen hn, fun _ => hlen.trans hw.symm⟩

/-- Every command word that runs gives one well-shaped response of its payload length. -/
theorem runCommand_responds {w : Word16} {s t : State} (h : runCommand w s = .next t) :
    ∃ r, t.rsp = some r ∧ respondsTo w s r := by
  have hD := digestBytes_le s.alg
  rcases runCommand_cases h with ⟨-, -, rfl⟩ | ⟨alg, hw, rfl⟩ | ⟨-, -, rfl⟩ | ⟨-, -, -, rfl⟩ |
    ⟨-, -, -, -, rfl⟩ | ⟨data, hw, -, -, -, rfl⟩ | ⟨-, -, rfl⟩ | ⟨hw, -, -, rfl⟩ | ⟨-, -, rfl⟩ | ⟨hw, -, rfl⟩
  · exact respondsTo_raise w s _
  · exact ⟨_, beginContext_rsp alg s, respondsTo_ok (by rw [hw]; cases alg <;> rfl) rfl (Nat.zero_le _)⟩
  · exact respondsTo_raise w s _
  · exact respondsTo_raise w s _
  · exact respondsTo_raise w s _
  · exact ⟨_, respond_rsp _ _ _, respondsTo_ok (by rw [hw]; rfl) rfl (Nat.zero_le _)⟩
  · exact respondsTo_raise w s _
  · exact ⟨_, finalized_rsp s, respondsTo_ok (by rw [hw]; rfl) (length_serialise _ _) (by omega)⟩
  · exact respondsTo_raise w s _
  · have hlen := length_toHexString (digestPrefix s.digest s.alg.digestBytes)
    rw [length_digestPrefix] at hlen
    exact ⟨_, respond_rsp _ _ _, respondsTo_ok (by rw [hw]; exact hlen.symm) rfl (by omega)⟩

/-- The ports while a response stands (R93). -/
theorem portsOf_of_rsp {t : State} {r : Response} (h : t.rsp = some r) :
    portsOf t = { rspValid := true, rspStatus := r.status.code, rspLen := r.len, rspData := payloadVector r.data,
                  phase := t.phase.code, err := t.err.code } := by
  rw [portsOf, h]

/-- Settles O33: the response by the cases of a command, the ports as views of it. -/
theorem everyCommandResponds : Obligations.EveryCommandResponds := by
  intro w s t hrun
  obtain ⟨r, hr, ⟨hlen, hmax, herror⟩, hok⟩ := runCommand_responds hrun
  have hzero : r.status ≠ .ok → r.len = 0 := fun hne =>
    BitVec.eq_of_toNat_eq (hlen.trans (by rw [herror hne]; rfl))
  rw [portsOf_of_rsp hr]
  exact ⟨r, hr, hlen, hmax, hzero, hok, rfl, rfl, rfl, rfl, rfl, fun k _ => payloadVector_byte hmax k,
    fun _ hk => payloadVector_above hmax hk⟩

end Sys2Proof.Machine
end

section
/-! The API's Update (30_encoding.md R97, 42_update.md R156): chunks, and the context a failed one leaves. -/

namespace Sys2Proof.Machine

theorem firstFailure_append (rs rs' : List Response) :
    firstFailure (rs ++ rs') = if firstFailure rs = .ok then firstFailure rs' else firstFailure rs := by
  induction rs with
  | nil => rfl
  | cons r rs ih =>
    by_cases hr : r.status = .ok
    · simp [firstFailure, hr, ih]
    · simp [firstFailure, hr]

/-- An API call is its command sequence, the responses read as one status. -/
theorem apiUpdate_eq_map (m : List Byte) (s : State) :
    apiUpdate m s = (runCommands (updateWords m) s).map fun p => (p.1, firstFailure p.2) := by
  unfold apiUpdate
  cases runCommands (updateWords m) s <;> rfl

/-- Two chunks are their concatenation (R95 chunking invariance). -/
theorem apiUpdate_append (m m' : List Byte) (s : State) :
    apiUpdate (m ++ m') s =
      (apiUpdate m s).bind fun p => (apiUpdate m' p.1).map fun q => (q.1, if p.2 = .ok then q.2 else p.2) := by
  have hwords : updateWords (m ++ m') = updateWords m ++ updateWords m' := List.map_append
  simp only [apiUpdate_eq_map, hwords, runCommands_append]
  cases runCommands (updateWords m) s with
  | none => rfl
  | some p => cases hq : runCommands (updateWords m') p.1 <;> simp [hq, firstFailure_append]

/-- One UPDATE that fails, or that runs in a failed context, leaves the context failed. -/
theorem failed_of_apiUpdate_singleton {b : Byte} {s t : State} {status : Status}
    (h : apiUpdate [b] s = some (t, status)) (hfail : s.phase = .failed ∨ status ≠ .ok) : t.phase = .failed := by
  cases hrun : runCommand (encode (.update b)) s with
  | next s1 =>
    obtain ⟨rfl, rfl⟩ : s1 = t ∧ firstFailure (responsesOf s1) = status := by
      simpa [apiUpdate, updateWords, runCommands, hrun] using h
    rw [runCommand_ok (decode_encode rfl), exec_update] at hrun
    rcases execUpdate_cases hrun with ⟨-, rfl⟩ | ⟨-, -, rfl⟩ | ⟨hactive, -, -, rfl⟩
    · exact raise_phase _ s
    · exact raise_phase _ s
    · simp [hactive, responsesOf, firstFailure] at hfail
  | fault => simp [apiUpdate, updateWords, runCommands, hrun] at h
  | refused => simp [apiUpdate, updateWords, runCommands, hrun] at h

theorem failed_of_apiUpdate {m : List Byte} {s t : State} {status : Status}
    (h : apiUpdate m s = some (t, status)) (hfail : s.phase = .failed ∨ status ≠ .ok) : t.phase = .failed := by
  induction m generalizing s status with
  | nil =>
    obtain ⟨rfl, rfl⟩ : s = t ∧ Status.ok = status := by
      simpa [apiUpdate, updateWords, runCommands, firstFailure] using h
    simpa using hfail
  | cons b m ih =>
    rw [← List.singleton_append, apiUpdate_append, Option.bind_eq_some_iff] at h
    obtain ⟨⟨s1, first⟩, hfirst, hmap⟩ := h
    obtain ⟨⟨t1, rest⟩, hrest, heq⟩ := Option.map_eq_some_iff.mp hmap
    obtain ⟨rfl, rfl⟩ : t1 = t ∧ (if first = .ok then rest else first) = status := Prod.mk.inj heq
    refine ih hrest ?_
    by_cases hok : first = .ok
    · rw [if_pos hok] at hfail
      exact hfail.imp_left fun hs => failed_of_apiUpdate_singleton hfirst (.inl hs)
    · exact .inl (failed_of_apiUpdate_singleton hfirst (.inr hok))

/-- Settles O39: composition of the command sequences, and induction on the bytes for the failed context. -/
theorem chunkingInvariance : Obligations.ChunkingInvariance :=
  ⟨apiUpdate_append, fun _ _ _ _ h hstatus => failed_of_apiUpdate h (.inr hstatus)⟩

end Sys2Proof.Machine
end

section
/-! The rotates and the shift as arithmetic (40_bit_utilities.md R112 to R114). -/

namespace Sys2Proof.Machine

theorem mul_two_pow_mod_two_pow {w a : Nat} (x : Nat) (ha : a ≤ w) :
    x * 2 ^ a % 2 ^ w = x % 2 ^ (w - a) * 2 ^ a := by
  rw [← pow_sub_mul_pow 2 ha, Nat.mul_mod_mul_right]

/-- The bits an `OR` brings together in a rotate by `a` do not overlap, so it is a sum. -/
theorem shiftLeft_mod_or_shiftRight {w x a : Nat} (hx : x < 2 ^ w) (ha : a ≤ w) :
    x <<< a % 2 ^ w ||| x >>> (w - a) = x % 2 ^ (w - a) * 2 ^ a + x / 2 ^ (w - a) := by
  have hlow : x / 2 ^ (w - a) < 2 ^ a := Nat.div_lt_of_lt_mul (pow_sub_mul_pow 2 ha ▸ hx)
  rw [Nat.shiftLeft_eq, Nat.shiftRight_eq_div_pow, mul_two_pow_mod_two_pow x ha, ← Nat.shiftLeft_eq,
    Nat.shiftLeft_add_eq_or_of_lt hlow]

theorem toNat_rotl {w s : Nat} (x : BitVec w) (hs : s < w) :
    (rotl x s).toNat = x.toNat * 2 ^ s % 2 ^ w + x.toNat / 2 ^ (w - s) := by
  rw [rotl, BitVec.toNat_rotateLeft, Nat.mod_eq_of_lt hs, shiftLeft_mod_or_shiftRight x.isLt hs.le,
    mul_two_pow_mod_two_pow x.toNat hs.le]

theorem toNat_rotr {w s : Nat} (x : BitVec w) (hs : s < w) :
    (rotr x s).toNat = x.toNat / 2 ^ s + x.toNat % 2 ^ s * 2 ^ (w - s) := by
  have hsum := shiftLeft_mod_or_shiftRight x.isLt (Nat.sub_le w s)
  rw [Nat.sub_sub_self hs.le] at hsum
  rw [rotr, BitVec.toNat_rotateRight, Nat.mod_eq_of_lt hs, Nat.or_comm, hsum, Nat.add_comm]

theorem toNat_shr {w : Nat} (x : BitVec w) (s : Nat) : (shr x s).toNat = x.toNat / 2 ^ s := by
  rw [shr, BitVec.toNat_ushiftRight, Nat.shiftRight_eq_div_pow]

theorem rotl_zero {w : Nat} (x : BitVec w) (hw : 0 < w) : rotl x 0 = x := by
  apply BitVec.eq_of_toNat_eq
  simp [toNat_rotl x hw, Nat.mod_eq_of_lt x.isLt, Nat.div_eq_of_lt x.isLt]

theorem rotr_zero {w : Nat} (x : BitVec w) (hw : 0 < w) : rotr x 0 = x := by
  apply BitVec.eq_of_toNat_eq
  simp [toNat_rotr x hw, Nat.mod_one]

theorem rotr_eq_rotl {w s : Nat} (x : BitVec w) (hpos : 0 < s) (hs : s < w) : rotr x s = rotl x (w - s) := by
  apply BitVec.eq_of_toNat_eq
  rw [toNat_rotr x hs, toNat_rotl x (by omega), mul_two_pow_mod_two_pow _ (Nat.sub_le w s),
    Nat.sub_sub_self hs.le, Nat.add_comm]

/-- Settles O45: each rotate is the sum of its two parts, and the two rotates are the same sum. -/
theorem rotateAndShiftFormulas : Obligations.RotateAndShiftFormulas := by
  intro w x s hs
  have hw : 0 < w := by omega
  exact ⟨toNat_rotl x hs, toNat_rotr x hs, toNat_shr x s, rotl_zero x hw, rotr_zero x hw,
    fun hpos => rotr_eq_rotl x hpos hs⟩

end Sys2Proof.Machine
end

section
/-! The byte-order codecs (40_bit_utilities.md R116 to R118), each word read as the number whose base-256
digits are its bytes. -/

namespace Sys2Proof.Machine

theorem toNat_byteOf {w : Nat} (x : BitVec w) (k : Nat) : (byteOf x k).toNat = x.toNat >>> (8 * k) % 2 ^ 8 :=
  BitVec.extractLsb'_toNat ..

theorem byteOf_succ {w : Nat} (x : BitVec w) (k : Nat) : byteOf x (k + 1) = byteOf (x >>> 8) k := by
  apply BitVec.eq_of_toNat_eq
  rw [toNat_byteOf, toNat_byteOf, BitVec.toNat_ushiftRight, ← Nat.shiftRight_add, Nat.mul_succ, Nat.add_comm]

/-- The low `n` bytes of a word, the least significant first. -/
def lowBytes {w : Nat} (x : BitVec w) (n : Nat) : List Byte := (List.range n).map (byteOf x)

theorem lowBytes_succ {w : Nat} (x : BitVec w) (n : Nat) :
    lowBytes x (n + 1) = byteOf x 0 :: lowBytes (x >>> 8) n := by
  simp [lowBytes, List.range_succ_eq_map, Function.comp_def, byteOf_succ]

theorem payloadNat_lowBytes {w : Nat} (x : BitVec w) (n : Nat) :
    payloadNat (lowBytes x n) = x.toNat % 2 ^ (8 * n) := by
  induction n generalizing x with
  | zero => simp [lowBytes, payloadNat, Nat.mod_one]
  | succ n ih =>
    have hpow : 2 ^ (8 * (n + 1)) = 256 * 2 ^ (8 * n) := by rw [Nat.mul_succ, Nat.pow_add, Nat.mul_comm]
    rw [lowBytes_succ, payloadNat_cons, ih, toNat_byteOf, BitVec.toNat_ushiftRight, hpow, Nat.mod_mul,
      Nat.shiftRight_eq_div_pow, Nat.shiftRight_eq_div_pow]
    simp

/-- Read from its most significant byte down, a byte list is the number its reverse is from byte 0 up. -/
theorem foldl_eq_payloadNat_reverse (bytes : List Byte) :
    bytes.foldl (fun n b => n * 256 + b.toNat) 0 = payloadNat bytes.reverse := by
  simp only [payloadNat, List.foldr_reverse, Nat.add_comm, Nat.mul_comm]

/-- A list that is a word's bytes, the most significant first, folds to the word. -/
theorem foldl_eq_toNat {n : Nat} {x : BitVec (8 * n)} {bytes : List Byte} (h : bytes.reverse = lowBytes x n) :
    bytes.foldl (fun n b => n * 256 + b.toNat) 0 = x.toNat := by
  rw [foldl_eq_payloadNat_reverse, h, payloadNat_lowBytes, Nat.mod_eq_of_lt x.isLt]

theorem byteOf_eq_getD {w : Nat} {x : BitVec w} {data : List Byte} (h : x.toNat = payloadNat data) (k : Nat) :
    byteOf x k = data.getD k 0 := by
  apply BitVec.eq_of_toNat_eq
  rw [toNat_byteOf, h, payloadNat_byte]

theorem toNat_append_byte {w : Nat} (x : BitVec w) (b : Byte) : (x ++ b).toNat = b.toNat + 256 * x.toNat := by
  rw [BitVec.toNat_append, ← Nat.shiftLeft_add_eq_or_of_lt b.isLt, Nat.shiftLeft_eq, Nat.add_comm, Nat.mul_comm]

theorem toNat_le32dec_eq_payloadNat (m0 m1 m2 m3 : Byte) : (le32dec m0 m1 m2 m3).toNat = payloadNat [m0, m1, m2, m3] := by
  simp [le32dec, toNat_append_byte, payloadNat]

theorem toNat_be64dec_eq_payloadNat (m0 m1 m2 m3 m4 m5 m6 m7 : Byte) :
    (be64dec m0 m1 m2 m3 m4 m5 m6 m7).toNat = payloadNat [m7, m6, m5, m4, m3, m2, m1, m0] := by
  simp [be64dec, toNat_append_byte, payloadNat]

theorem be32dec_eq_le32dec (m0 m1 m2 m3 : Byte) : be32dec m0 m1 m2 m3 = le32dec m3 m2 m1 m0 := rfl

theorem reverse_be32enc (x : Word32) : (be32enc x).reverse = le32enc x := rfl

theorem reverse_be64enc (x : Word64) : (be64enc x).reverse = le64enc x := rfl

theorem le32enc_eq_lowBytes (x : Word32) : le32enc x = lowBytes x 4 := rfl

theorem le64enc_eq_lowBytes (x : Word64) : le64enc x = lowBytes x 8 := rfl

/-- The lower 64 bits hold bytes 0 to 7 and the upper 64 bits hold bytes 8 to 15. -/
theorem reverse_be128enc (x : BitVec 128) : (be128enc x).reverse = lowBytes x 16 := by
  rw [be128enc, List.reverse_append, reverse_be64enc, reverse_be64enc]
  simp only [le64enc, byteOf_extractLsb', Nat.reduceLT]
  rfl

theorem le32enc_le32dec (m0 m1 m2 m3 : Byte) : le32enc (le32dec m0 m1 m2 m3) = [m0, m1, m2, m3] := by
  simp [le32enc, byteOf_eq_getD (toNat_le32dec_eq_payloadNat m0 m1 m2 m3)]

theorem be32enc_be32dec (m0 m1 m2 m3 : Byte) : be32enc (be32dec m0 m1 m2 m3) = [m0, m1, m2, m3] := by
  rw [← List.reverse_inj, reverse_be32enc, be32dec_eq_le32dec, le32enc_le32dec]
  rfl

theorem be64enc_be64dec (m0 m1 m2 m3 m4 m5 m6 m7 : Byte) :
    be64enc (be64dec m0 m1 m2 m3 m4 m5 m6 m7) = [m0, m1, m2, m3, m4, m5, m6, m7] := by
  simp [be64enc, byteOf_eq_getD (toNat_be64dec_eq_payloadNat m0 m1 m2 m3 m4 m5 m6 m7)]

theorem mirror32_le32dec (m0 m1 m2 m3 : Byte) : mirror32 (le32dec m0 m1 m2 m3) = be32dec m0 m1 m2 m3 := by
  simp [mirror32, be32dec, byteOf_eq_getD (toNat_le32dec_eq_payloadNat m0 m1 m2 m3)]

theorem toNat_le32dec (m0 m1 m2 m3 : Byte) : (le32dec m0 m1 m2 m3).toNat =
    m0.toNat + m1.toNat * 2 ^ 8 + m2.toNat * 2 ^ 16 + m3.toNat * 2 ^ 24 := by
  rw [toNat_le32dec_eq_payloadNat]
  simp only [payloadNat, List.foldr]
  omega

theorem toNat_be32dec (m0 m1 m2 m3 : Byte) : (be32dec m0 m1 m2 m3).toNat =
    m0.toNat * 2 ^ 24 + m1.toNat * 2 ^ 16 + m2.toNat * 2 ^ 8 + m3.toNat := by
  rw [be32dec_eq_le32dec, toNat_le32dec]
  omega

theorem toNat_be64dec (m0 m1 m2 m3 m4 m5 m6 m7 : Byte) : (be64dec m0 m1 m2 m3 m4 m5 m6 m7).toNat =
    m0.toNat * 2 ^ 56 + m1.toNat * 2 ^ 48 + m2.toNat * 2 ^ 40 + m3.toNat * 2 ^ 32 +
    m4.toNat * 2 ^ 24 + m5.toNat * 2 ^ 16 + m6.toNat * 2 ^ 8 + m7.toNat := by
  rw [toNat_be64dec_eq_payloadNat]
  simp only [payloadNat, List.foldr]
  omega

/-- Settles O46: a decoded word is the number its bytes write in base 256, and an encoder lists its digits. -/
theorem byteOrderCodecs : Obligations.ByteOrderCodecs := by
  exact ⟨fun m0 m1 m2 m3 => ⟨toNat_le32dec .., toNat_be32dec .., le32enc_le32dec .., be32enc_be32dec ..,
      (mirror32_le32dec ..).symm⟩,
    fun m0 m1 m2 m3 m4 m5 m6 m7 => ⟨toNat_be64dec .., be64enc_be64dec ..⟩,
    fun x => ⟨reverse_be64enc x, foldl_eq_toNat (n := 8) ((reverse_be64enc x).trans (le64enc_eq_lowBytes x))⟩,
    fun x => ⟨reverse_be32enc x, foldl_eq_toNat (n := 4) ((reverse_be32enc x).trans (le32enc_eq_lowBytes x))⟩,
    fun x => ⟨rfl, foldl_eq_toNat (n := 16) (reverse_be128enc x)⟩⟩

end Sys2Proof.Machine
end

section
/-! The command word and the effect of INIT (41_init.md R130, R139). -/

namespace Sys2Proof

/-- The word `0x1s00` selects the INIT row of `s` (30_encoding.md R84, R86). -/
theorem decode_selectorWord (selector : BitVec 4) :
    decode (0x1000 + BitVec.ofNat 16 (256 * selector.toNat)) = .ok (initRow selector) := by
  have hword : 0x1000 + BitVec.ofNat 16 (256 * selector.toNat) = commandWord 1 selector 0 := by
    revert selector; decide
  rw [hword, decode_of_op_init (opField_commandWord ..), dataField_commandWord, algField_commandWord, if_pos rfl]

theorem initRow_code (alg : Alg) : initRow (alg.code.setWidth 4) = initCommandOf alg := by
  cases alg <;> rfl

/-- The word of a defined selector is that of its algorithm's INIT. -/
theorem decode_algWord (alg : Alg) :
    decode (0x1000 + BitVec.ofNat 16 (256 * alg.code.toNat)) = .ok (initCommandOf alg) := by
  rw [← BitVec.toNat_setWidth_of_le (by decide : 3 ≤ 4), decode_selectorWord, initRow_code]

/-- The word of a selector of 8 or more is INIT with an undefined selector. -/
theorem decode_undefinedSelectorWord {selector : BitVec 4} (h : 8 ≤ selector.toNat) :
    decode (0x1000 + BitVec.ofNat 16 (256 * selector.toNat)) = .ok (.initUndef selector) := by
  rw [decode_selectorWord, initRow_of_undefined h]

namespace Machine

theorem length_ivWords (alg : Alg) : (ivWords alg).length = alg.stateWords := by
  cases alg <;> rfl

/-- `H[k]` after INIT: the IV's word below `n`, and zero from `n` up. -/
theorem getElem_ivRegs (alg : Alg) (k : Fin 8) :
    (ivRegs alg)[k] = if k.val < alg.stateWords then (ivWords alg).getD k.val 0 else 0 := by
  have hword : (ivRegs alg)[k] = (ivWords alg).getD k.val 0 := Vector.getElem_ofFn ..
  split
  · exact hword
  · next hk => rw [hword, List.getD_eq_default _ _ (length_ivWords alg ▸ not_lt.mp hk)]

/-- The eight INIT rows with their selectors' algorithms (30_encoding.md R84). -/
theorem initRows_are_initCommandOf :
    ∀ row ∈ [(Instr.initMd5, Alg.md5), (.initSha1, .sha1), (.initSha224, .sha224), (.initSha256, .sha256),
      (.initSha384, .sha384), (.initSha512, .sha512), (.initSha512_224, .sha512_224), (.initSha512_256, .sha512_256)],
    row.1 = initCommandOf row.2 := by decide

/-- Settles O3: INIT of each algorithm is `beginContext`, whose registers are read off one by one. -/
theorem initWritesWholeContext : Obligations.InitWritesWholeContext := by
  refine ⟨fun i alg hmem => ?_, fun selector s h => ⟨decode_undefinedSelectorWord h, exec_initUndef selector s⟩⟩
  obtain rfl : i = initCommandOf alg := initRows_are_initCommandOf (i, alg) hmem
  refine ⟨decode_algWord alg, fun s => ⟨beginContext alg s, exec_initCommandOf alg s, ?_⟩⟩
  exact ⟨rfl, getElem_ivRegs alg, rfl, Memory.read_zeroed, Memory.wf_zeroed, rfl,
    fun k => Vector.getElem_replicate .., rfl, rfl, rfl⟩

/-- Settles O6: the word decodes to INIT.UNDEF, and `raise` writes these three registers. -/
theorem undefinedSelectorRaises : Obligations.UndefinedSelectorRaises :=
  fun selector s h => ⟨decode_undefinedSelectorWord h, exec_initUndef selector s⟩

end Machine
end Sys2Proof
end

section
/-! The initial values: the published literals (41_init.md R131 to R138) and how they are derived (R141). -/

namespace Sys2Proof.Machine

theorem exec_initCommandOf_h {alg : Alg} {words : Vector Word64 8} (hiv : ivRegs alg = words) (s : State) :
    ∃ t, exec (initCommandOf alg) s = .next t ∧ t.h = words :=
  ⟨beginContext alg s, exec_initCommandOf alg s, hiv⟩

/-- Settles O4: INIT loads `ivRegs`, and each of the eight tables is compared with its literals. -/
theorem initLoadsPublishedIv : Obligations.InitLoadsPublishedIv := by
  intro s
  obtain ⟨t, hexec, hwords⟩ := exec_initCommandOf_h (alg := .md5) rfl s
  exact ⟨⟨t, hexec, hwords, by decide⟩, exec_initCommandOf_h (alg := .sha1) rfl s,
    exec_initCommandOf_h (alg := .sha224) rfl s, exec_initCommandOf_h (alg := .sha256) rfl s,
    exec_initCommandOf_h (alg := .sha384) rfl s, exec_initCommandOf_h (alg := .sha512) rfl s,
    exec_initCommandOf_h (alg := .sha512_224) rfl s, exec_initCommandOf_h (alg := .sha512_256) rfl s⟩

/-- `q * 2 ^ w + x` is `⌊2 ^ w * √p⌋`: `√p` has the integer part `q`, and `x` is the first `w` bits of its fraction. -/
abbrev isScaledSqrt (w p q x : Nat) : Prop :=
  (q * 2 ^ w + x) ^ 2 ≤ p * 2 ^ (2 * w) ∧ p * 2 ^ (2 * w) < (q * 2 ^ w + x + 1) ^ 2

theorem ivWords_sha256_scaledSqrt : ∀ i < 8,
    isScaledSqrt 32 ([2, 3, 5, 7, 11, 13, 17, 19].getD i 0) ([1, 1, 2, 2, 3, 3, 4, 4].getD i 0)
      ((ivWords .sha256).getD i 0).toNat ∧
    ((ivWords .sha256).getD i 0).toNat < 2 ^ 32 := by decide

theorem ivWords_sha512_scaledSqrt : ∀ i < 8,
    isScaledSqrt 64 ([2, 3, 5, 7, 11, 13, 17, 19].getD i 0) ([1, 1, 2, 2, 3, 3, 4, 4].getD i 0)
      ((ivWords .sha512).getD i 0).toNat := by decide

theorem ivWords_sha384_scaledSqrt : ∀ i < 8,
    isScaledSqrt 64 ([23, 29, 31, 37, 41, 43, 47, 53].getD i 0) ([4, 5, 5, 6, 6, 6, 6, 7].getD i 0)
      ((ivWords .sha384).getD i 0).toNat := by decide

/-- The start state of the SHA-512/t IV generation: SHA-512's IV, each word masked with `a5`. -/
def sha512tStart : Vector Word64 8 := (ivRegs .sha512).map fun x => x ^^^ 0xa5a5a5a5a5a5a5a5

/-- The one block of an eleven-byte name: the padding of SHA-512 for a message of 88 bits. -/
def nameBlock (name : List Byte) : List Byte := name ++ [0x80] ++ List.replicate 100 0x00 ++ be128enc 88

theorem ivRegs_sha512t_eq_compress :
    ∀ row ∈ [(Alg.sha512_224, "SHA-512/224".toList.map asciiByte), (.sha512_256, "SHA-512/256".toList.map asciiByte)],
    ivRegs row.1 = compress .sha512 sha512tStart (nameBlock row.2) := by
  decide +kernel

/-- Settles O5: the square roots with their integer parts as witnesses, and one compression for each SHA-512/t. -/
theorem initialValuesRederived : Obligations.InitialValuesRederived := by
  refine ⟨fun i hi => ?_, fun i hi => ⟨_, ivWords_sha512_scaledSqrt i hi⟩,
    fun i hi => ⟨_, ivWords_sha384_scaledSqrt i hi⟩, by decide,
    fun alg name hmem => ivRegs_sha512t_eq_compress (alg, name) hmem, by decide, by decide⟩
  obtain ⟨⟨hle, hlt⟩, hword⟩ := ivWords_sha256_scaledSqrt i hi
  exact ⟨_, hle, hlt, hword⟩

end Sys2Proof.Machine
end

section
/-! UPDATE (42_update.md): the byte appended, the block it fills, the counter's limit (R150 to R153), the
phases it is not for (R158), and the hash-buffer FSM (R154). -/

namespace Sys2Proof.Machine

/-- Settles O19, by the three commands. -/
theorem wrongPhaseRaisesInvalidState : Obligations.WrongPhaseRaisesInvalidState := by
  rintro i s (⟨⟨data, rfl⟩, hphase⟩ | ⟨rfl, hphase⟩ | ⟨rfl, hphase⟩)
  · exact exec_update_of_ne_active data hphase
  · exact exec_finalize_of_ne_active hphase
  · exact exec_toHex_of_ne_done hphase

/-- A byte sequence written on top of the first `n` bytes is read behind them. -/
theorem Memory.readBytes_writeBytes {m : Memory} {n k : Nat} {vs : List Byte} (hm : m.wf = true)
    (hk : n + vs.length = k) (hrange : k ≤ 256) : (m.writeBytes n vs).readBytes 0 k = m.readBytes 0 n ++ vs := by
  subst hk
  apply List.ext_getElem
  · simp
  · intro i hi _
    rw [Memory.length_readBytes] at hi
    simp only [Memory.readBytes, List.getElem_map, List.getElem_range, Nat.zero_add,
      Memory.read_writeBytes i hm hrange, List.getElem_append, List.length_map, List.length_range]
    by_cases hlow : i < n
    · rw [if_neg (by omega), dif_pos hlow]
    · rw [if_pos (by omega), dif_neg hlow, List.getD_eq_getElem]

theorem Memory.readBytes_write {m : Memory} {n : Nat} (v : Byte) (hm : m.wf = true) (hn : n < 256) :
    (m.write n v).readBytes 0 (n + 1) = m.readBytes 0 n ++ [v] :=
  Memory.readBytes_writeBytes (vs := [v]) hm rfl hn

/-- An UPDATE that does not fill the block writes the byte, `BUFLEN` and `LEN`, also where `BUFLEN` is past
the block. -/
theorem updated_of_not_full {s : State} (data : Byte) (hrange : s.buflen.toNat < 256)
    (hne : s.buflen.toNat + 1 ≠ s.alg.blockSize) :
    (updated data s).h = s.h ∧ (updated data s).buflen.toNat = s.buflen.toNat + 1 := by
  have hadd : (s.buflen + 1).toNat = s.buflen.toNat + 1 := by
    have h1 : (1 : BitVec 9).toNat = 1 := rfl
    rw [BitVec.toNat_add, h1]
    omega
  unfold updated
  dsimp only
  rw [if_neg (hadd ▸ hne)]
  exact ⟨rfl, hadd⟩

/-- The block an UPDATE fills: the bytes that were buffered and the new one (42_update.md R152). -/
theorem updated_h_of_full {s : State} (data : Byte) (hwf : s.buf.wf = true)
    (hfull : s.buflen.toNat + 1 = s.alg.blockSize) :
    (updated data s).h = compress s.alg s.h (s.buf.readBytes 0 s.buflen.toNat ++ [data]) := by
  have hB := two_blocks_le s.alg
  rw [updated_h data (by omega), if_pos hfull, updated_buf, ← hfull,
    Memory.readBytes_write data hwf (by omega)]

/-- Settles O7: the counter has room, `BUFLEN` is an address, and the block is not full. -/
theorem updateAppendsOneByte : Obligations.UpdateAppendsOneByte := by
  intro data s hphase hwf hroom hrange hne
  rw [← lengthWouldOverflow_eq_false_iff] at hroom
  obtain ⟨hh, hbuflen⟩ := updated_of_not_full data hrange hne
  refine ⟨_, exec_update_room data hphase hroom hrange, ?_⟩
  simp only [respond_buf, updated_buf, respond_len, updated_len]
  exact ⟨fun a => Memory.read_write _ data a hwf, Memory.wf_write hwf hrange, hbuflen,
    toNat_len_add_eight hroom, respond_rsp .., hh, updated_phase data s, updated_err data s,
    updated_alg data s, updated_digest data s⟩

/-- Settles O8: the same registers, with the full block compressed and `BUFLEN` empty. -/
theorem updateCompressesFullBlock : Obligations.UpdateCompressesFullBlock := by
  intro data s hphase hwf hroom hfull
  have hB := two_blocks_le s.alg
  have hrange : s.buflen.toNat < 256 := by omega
  have hpending : s.alg.blockSize - 1 = s.buflen.toNat := by omega
  have hbuflen : (updated data s).buflen.toNat = 0 := by
    rw [toNat_updated_buflen data (by omega), if_pos hfull]
  rw [← lengthWouldOverflow_eq_false_iff] at hroom
  refine ⟨_, exec_update_room data hphase hroom hrange, ?_⟩
  simp only [respond_buf, updated_buf, respond_len, updated_len, hpending]
  exact ⟨updated_h_of_full data hwf hfull, BitVec.eq_of_toNat_eq hbuflen, toNat_len_add_eight hroom,
    fun a => Memory.read_write _ data a hwf, Memory.wf_write hwf hrange, respond_rsp .., updated_phase data s,
    updated_err data s, updated_alg data s, updated_digest data s⟩

theorem lengthWouldOverflow_eq_true_iff (alg : Alg) (len : BitVec 128) :
    lengthWouldOverflow alg len = true ↔ len.toNat + 8 > 2 ^ alg.counterBits - 1 := decide_eq_true_iff

/-- In phase ACTIVE `raise` gives `ERR` the new code: the context has not failed before. -/
theorem raise_of_active (e : ErrorKind) {s : State} (hphase : s.phase = .active) :
    raise e s = { s with phase := .failed, err := e.status,
                         rsp := some { status := e.status, len := 0, data := [] } } := by
  simp [raise, respond, hphase]

/-- A whole count of bytes overflows the counter at its last value only. -/
theorem overflow_iff_last {alg : Alg} {n : Nat} (hdvd : n % 8 = 0) (hmax : n ≤ 2 ^ alg.counterBits - 8) :
    n + 8 > 2 ^ alg.counterBits - 1 ↔ n = 2 ^ alg.counterBits - 8 := by
  rcases alg_sizes alg with ⟨-, -, hc, -⟩ | ⟨-, -, hc, -⟩ <;> rw [hc] at hmax ⊢ <;> omega

/-- Settles O9: past the phase check the counter's limit decides between the raise and the append. -/
theorem lengthOverflowRaises : Obligations.LengthOverflowRaises := by
  intro data s hphase
  refine ⟨fun hover => ?_, fun hroom hrange => ?_, fun hroom t r hexec hrsp => ?_,
    overflow_iff_last, by cases s.alg <;> rfl⟩
  · rw [exec_update_overflow data hphase ((lengthWouldOverflow_eq_true_iff ..).mpr hover),
      raise_of_active .messageTooLarge hphase]
    rfl
  · rw [← lengthWouldOverflow_eq_false_iff] at hroom
    refine ⟨_, exec_update_room data hphase hroom hrange, by simpa using hphase, updated_err data s, ?_,
      respond_rsp ..⟩
    rw [respond_len, updated_len, toNat_len_add_eight hroom]
  · rcases execUpdate_cases hexec with ⟨hne, -⟩ | ⟨-, hover, -⟩ | ⟨-, -, -, rfl⟩
    · exact absurd hphase hne
    · rw [lengthWouldOverflow_eq_true_iff] at hover
      omega
    · cases hrsp
      decide

/-- Settles O11: the micro-states one by one, as far as each check of the command lets them go. -/
theorem updateFsmRefinesUpdate : Obligations.UpdateFsmRefinesUpdate := by
  intro data s
  rw [exec_update, execUpdate]
  by_cases hphase : s.phase = .active
  · cases hover : lengthWouldOverflow s.alg s.len with
    | true => simp [runMicro, updateMicroStep, hphase, hover]
    | false =>
      cases happend : appendByte data s with
      | none => simp [runMicro, updateMicroStep, hphase, hover, happend, orBufferFault]
      | some t =>
        cases hfull : blockIsFull t with
        | true =>
          simp [runMicro, updateMicroStep, microGoto, hphase, hover, happend, orBufferFault, closeBlock, hfull,
            compressBlock_eq (Nat.zero_le 1)]
        | false =>
          simp [runMicro, updateMicroStep, hphase, hover, happend, orBufferFault, closeBlock, hfull]
  · simp [runMicro, updateMicroStep, hphase]

end Sys2Proof.Machine
end

section
/-! A context and the message it has consumed, byte by byte (10_state.md R29, 42_update.md R155). -/

namespace Sys2Proof.Machine

/-- Whole blocks do not see what is appended after them. -/
theorem hashBlocks_append {alg : Alg} {bytes : List Byte} (more : List Byte) (h : Vector Word64 8) {k : Nat}
    (hk : k * alg.blockSize ≤ bytes.length) : hashBlocks alg (bytes ++ more) h k = hashBlocks alg bytes h k :=
  hashBlocks_congr k fun _ hj => blockOf_append more ((Nat.mul_le_mul_right _ hj).trans hk)

/-- The bytes of a message after its whole blocks: what an ACTIVE context has buffered (10_state.md R29). -/
def pendingBytes (alg : Alg) (m : List Byte) : List Byte := m.drop (m.length / alg.blockSize * alg.blockSize)

theorem length_pendingBytes (alg : Alg) (m : List Byte) :
    (pendingBytes alg m).length = m.length % alg.blockSize := by
  have := Nat.div_add_mod' m.length alg.blockSize
  rw [pendingBytes, List.length_drop]
  omega

theorem drop_append_eq_pendingBytes (alg : Alg) (m more : List Byte) :
    (m ++ more).drop (m.length / alg.blockSize * alg.blockSize) = pendingBytes alg m ++ more :=
  List.drop_append_of_le_length (Nat.div_mul_le_self _ _)

/-- One byte more either fills a block or joins the pending ones. -/
theorem succ_div_mod {N B : Nat} (hB : 0 < B) :
    (N % B + 1 = B ∧ (N + 1) / B = N / B + 1 ∧ (N + 1) % B = 0) ∨
    (N % B + 1 ≠ B ∧ (N + 1) / B = N / B ∧ (N + 1) % B = N % B + 1) := by
  have hsplit := Nat.div_add_mod N B
  have hlt := Nat.mod_lt N hB
  by_cases hfull : N % B + 1 = B
  · have hmul := Nat.mul_add_one B (N / B)
    exact .inl ⟨hfull, (Nat.div_mod_unique hB).mpr ⟨by omega, hB⟩⟩
  · exact .inr ⟨hfull, (Nat.div_mod_unique hB).mpr ⟨by omega, by omega⟩⟩

/-- The fold over one whole block more: the pending bytes and the byte that fills it (42_update.md R152). -/
theorem hashBlocks_append_of_full {alg : Alg} {m : List Byte} (data : Byte) (h : Vector Word64 8)
    (hfull : m.length % alg.blockSize + 1 = alg.blockSize) :
    hashBlocks alg (m ++ [data]) h (m.length / alg.blockSize + 1) =
      compress alg (hashBlocks alg m h (m.length / alg.blockSize)) (pendingBytes alg m ++ [data]) := by
  have hlength : (pendingBytes alg m ++ [data]).length = alg.blockSize := by
    rw [List.length_append, length_pendingBytes]
    exact hfull
  have hblock : blockOf alg (m ++ [data]) (m.length / alg.blockSize) = pendingBytes alg m ++ [data] := by
    rw [blockOf, drop_append_eq_pendingBytes, List.take_of_length_le hlength.le]
  rw [hashBlocks_succ, hashBlocks_append [data] h (Nat.div_mul_le_self _ _), hblock]

/-- INIT starts a context that has consumed nothing (41_init.md R130). -/
theorem contextHolds_beginContext (alg : Alg) (s : State) : contextHolds alg [] (beginContext alg s) := by
  simp [contextHolds, Memory.readBytes]

theorem contextHolds.buflen_lt {alg : Alg} {m : List Byte} {s : State} (h : contextHolds alg m s) :
    s.buflen.toNat < alg.blockSize := by
  obtain ⟨-, -, -, -, -, -, hbuflen, -, -, -⟩ := h
  exact hbuflen ▸ Nat.mod_lt _ (blockSize_pos alg)

theorem contextHolds.readBytes_buflen {alg : Alg} {m : List Byte} {s : State} (h : contextHolds alg m s) :
    s.buf.readBytes 0 s.buflen.toNat = pendingBytes alg m := by
  obtain ⟨-, -, -, -, -, -, hbuflen, -, hbuf, -⟩ := h
  rw [hbuflen, hbuf, pendingBytes]

/-- What an UPDATE leaves of the blocks and the pending bytes of a context that has consumed `m`: those of `m`
and the byte. -/
theorem updated_blocks {alg : Alg} {m : List Byte} {s : State} (data : Byte) (h : contextHolds alg m s) :
    (updated data s).buflen.toNat = (m ++ [data]).length % alg.blockSize ∧
    (updated data s).h = hashBlocks alg (m ++ [data]) (ivRegs alg) ((m ++ [data]).length / alg.blockSize) ∧
    (updated data s).buf.readBytes 0 ((m ++ [data]).length % alg.blockSize) = pendingBytes alg (m ++ [data]) := by
  have hlt := h.buflen_lt
  have hbuf := h.readBytes_buflen
  obtain ⟨-, -, rfl, hwf, -, -, hbuflen, hh, -, -⟩ := h
  have hB := two_blocks_le s.alg
  rw [toNat_updated_buflen data hlt, pendingBytes, List.length_append, List.length_singleton]
  obtain ⟨hfull, hdiv, hmod⟩ | ⟨hfull, hdiv, hmod⟩ := succ_div_mod (N := m.length) (blockSize_pos s.alg) <;>
    rw [hdiv, hmod]
  · have hnone : (m ++ [data]).length ≤ (m.length / s.alg.blockSize + 1) * s.alg.blockSize := by
      have hsplit := Nat.div_add_mod' m.length s.alg.blockSize
      rw [List.length_append, List.length_singleton, Nat.succ_mul]
      omega
    rw [hashBlocks_append_of_full data _ hfull, List.drop_of_length_le hnone]
    rw [← hbuflen] at hfull
    rw [updated_h_of_full data hwf hfull, hh, hbuf]
    exact ⟨if_pos hfull, rfl, rfl⟩
  · rw [← hbuflen] at hfull ⊢
    rw [hashBlocks_append [data] _ (Nat.div_mul_le_self _ _), drop_append_eq_pendingBytes, updated_buf,
      Memory.readBytes_write data hwf (by omega), hbuf]
    exact ⟨if_neg hfull, (updated_of_not_full data (by omega) hfull).1.trans hh, rfl⟩

/-- An UPDATE the counter has room for extends the message of its context by one byte (42_update.md R155). -/
theorem exec_update_contextHolds {alg : Alg} {m : List Byte} {s : State} (data : Byte) (h : contextHolds alg m s)
    (hroom : 8 * (m.length + 1) ≤ 2 ^ alg.counterBits - 8) :
    exec (.update data) s = .next (respond .ok [] (updated data s)) ∧
      contextHolds alg (m ++ [data]) (respond .ok [] (updated data s)) := by
  have hlt := h.buflen_lt
  have hB := two_blocks_le alg
  obtain ⟨hbuflen', hh', hbuf'⟩ := updated_blocks data h
  obtain ⟨hphase, herr, halg, hwf, hlen, -, -, -, -, hdigest⟩ := h
  have hbits : s.len.toNat ≤ 8 * m.length := by
    rw [hlen, BitVec.toNat_ofNat]
    exact Nat.mod_le _ _
  have hcounter : lengthWouldOverflow s.alg s.len = false := by
    rw [lengthWouldOverflow_eq_false_iff, halg]
    omega
  have hlen' : (updated data s).len = BitVec.ofNat 128 (8 * (m ++ [data]).length) := by
    rw [updated_len, hlen, List.length_append, List.length_singleton, Nat.mul_add, BitVec.ofNat_add]
    rfl
  have hwf' : (updated data s).buf.wf = true := by
    rw [updated_buf]
    exact Memory.wf_write hwf (by omega)
  have hmax' : 8 * (m ++ [data]).length ≤ 2 ^ alg.counterBits - 8 := by
    rw [List.length_append]
    exact hroom
  exact ⟨exec_update_room data hphase hcounter (by omega), (updated_phase data s).trans hphase,
    (updated_err data s).trans herr, (updated_alg data s).trans halg, hwf', hlen', hmax', hbuflen', hh', hbuf',
    (updated_digest data s).trans hdigest⟩

/-- Settles O10: INIT's fresh context, and the two cases of an appended byte. -/
theorem contextFollowsMessage : Obligations.ContextFollowsMessage :=
  ⟨fun alg s => ⟨_, exec_initCommandOf alg s, contextHolds_beginContext alg s⟩,
    fun _ _ data _ h hroom => ⟨_, exec_update_contextHolds data h hroom⟩⟩

end Sys2Proof.Machine
end

section
/-! FINALIZE of a context against the closed form of the padded message (43_finalize_padding.md R177), and the
whole command sequence of a digest (42_update.md R157, 70_reset_and_hazards.md R384). -/

namespace Sys2Proof.Machine

/-- The zero bytes between the `0x80` byte and the length field after `r` pending bytes
(43_finalize_padding.md R172). -/
def padZeros (alg : Alg) (r : Nat) : List Byte :=
  List.replicate (paddedLength alg r - alg.lengthBytes - (r + 1)) 0x00

theorem readBytes_paddedBuffer {s : State} (hwf : s.buf.wf = true) (hlt : s.buflen.toNat < s.alg.blockSize) :
    (paddedBuffer s).readBytes 0 (paddedLength s.alg s.buflen.toNat) =
      s.buf.readBytes 0 s.buflen.toNat ++ [0x80] ++ padZeros s.alg s.buflen.toNat ++ lengthField s.alg s.len := by
  have hfits := paddedLength_fits hlt
  have hP := paddedLength_le s.alg s.buflen.toNat
  have hzeros : s.buflen.toNat + 1 + (padZeros s.alg s.buflen.toNat).length =
      paddedLength s.alg s.buflen.toNat - s.alg.lengthBytes := by
    rw [padZeros, List.length_replicate]
    omega
  have hfield : paddedLength s.alg s.buflen.toNat - s.alg.lengthBytes + (lengthField s.alg s.len).length =
      paddedLength s.alg s.buflen.toNat := by
    rw [length_lengthField]
    omega
  have hwf80 := Memory.wf_write (v := 0x80) hwf (by omega : s.buflen.toNat < 256)
  have hwf00 := Memory.wf_writeBytes hwf80 (hzeros.trans_le (by omega))
  rw [← Memory.readBytes_write 0x80 hwf (by omega), ← Memory.readBytes_writeBytes hwf80 hzeros (by omega),
    ← Memory.readBytes_writeBytes hwf00 hfield hP]
  rfl

theorem blockOf_readBytes {alg : Alg} (m : Memory) {k n : Nat} (h : (k + 1) * alg.blockSize ≤ n) :
    blockOf alg (m.readBytes 0 n) k = m.readBytes (k * alg.blockSize) alg.blockSize := by
  rw [Nat.succ_mul] at h
  apply List.ext_getElem
  · simp only [blockOf, List.length_take, List.length_drop, Memory.length_readBytes]
    omega
  · intro i _ _
    simp [blockOf, Memory.readBytes]

/-- The final compressions are the fold over the one or two blocks of the padded buffer
(43_finalize_padding.md R175). -/
theorem paddedCompress_eq_hashBlocks (s : State) :
    paddedCompress s =
      hashBlocks s.alg ((paddedBuffer s).readBytes 0 (paddedLength s.alg s.buflen.toNat)) s.h
        (paddedLength s.alg s.buflen.toNat / s.alg.blockSize) := by
  have hB := blockSize_pos s.alg
  unfold paddedCompress
  dsimp only
  obtain ⟨-, hP⟩ | ⟨-, hP⟩ := paddedLength_cases s.alg s.buflen.toNat <;> rw [hP]
  · rw [if_neg (by omega), Nat.div_self hB, hashBlocks_succ, hashBlocks_zero, blockOf_readBytes _ (by omega),
      Nat.zero_mul]
  · rw [if_pos rfl, Nat.mul_div_cancel _ hB, hashBlocks_succ, hashBlocks_succ, hashBlocks_zero,
      blockOf_readBytes _ (by omega), blockOf_readBytes _ (by omega), Nat.zero_mul, Nat.one_mul]

/-- The closed form's count of zero bytes is that of the one or two last blocks (43_finalize_padding.md R177). -/
theorem padZeros_eq_zeroCount (alg : Alg) (N : Nat) :
    padZeros alg (N % alg.blockSize) = List.replicate (zeroCount alg N) 0x00 := by
  have hlt := Nat.mod_lt N (blockSize_pos alg)
  have hP := paddedLength_cases alg (N % alg.blockSize)
  unfold padZeros zeroCount
  congr 1
  generalize N % alg.blockSize = r at hlt hP ⊢
  rcases alg_sizes alg with ⟨hB, hL, -⟩ | ⟨hB, hL, -⟩ <;> rw [hB, hL] at hP ⊢ <;> omega

/-- The last one or two blocks of the padded data: the pending bytes and their padding. -/
theorem drop_paddedMessage (alg : Alg) (m : List Byte) :
    (paddedMessage alg m).drop (m.length / alg.blockSize * alg.blockSize) =
      pendingBytes alg m ++ [0x80] ++ padZeros alg (m.length % alg.blockSize) ++
        lengthField alg (BitVec.ofNat 128 (8 * m.length)) := by
  simp only [paddedMessage, padZeros_eq_zeroCount, List.append_assoc, drop_append_eq_pendingBytes]

theorem paddedBlocks_eq (alg : Alg) (m : List Byte) :
    paddedBlocks alg m = m.length / alg.blockSize + paddedLength alg (m.length % alg.blockSize) / alg.blockSize := by
  have hB := blockSize_pos alg
  have hfits := paddedLength_fits (Nat.mod_lt m.length hB)
  have hsplit := Nat.div_add_mod m.length alg.blockSize
  have hlength : (paddedMessage alg m).length =
      alg.blockSize * (m.length / alg.blockSize) + paddedLength alg (m.length % alg.blockSize) := by
    simp only [paddedMessage, ← padZeros_eq_zeroCount, padZeros, List.length_append, List.length_singleton,
      List.length_replicate, length_lengthField]
    omega
  rw [paddedBlocks, hlength, Nat.mul_add_div hB]

/-- FINALIZE folds a context that has consumed `m` into the state words of the padded message as a whole. -/
theorem paddedCompress_eq_hashState {alg : Alg} {m : List Byte} {s : State} (h : contextHolds alg m s) :
    paddedCompress s = hashState alg m := by
  have hlt := h.buflen_lt
  have hpending := h.readBytes_buflen
  obtain ⟨-, -, rfl, hwf, hlen, -, hbuflen, hh, -, -⟩ := h
  have hwhole : hashBlocks s.alg (paddedMessage s.alg m) (ivRegs s.alg) (m.length / s.alg.blockSize) = s.h := by
    rw [hh, paddedMessage, List.append_assoc, List.append_assoc,
      hashBlocks_append _ _ (Nat.div_mul_le_self _ _)]
  rw [paddedCompress_eq_hashBlocks, readBytes_paddedBuffer hwf hlt, hpending, hashState, paddedBlocks_eq,
    hashBlocks_add, hwhole, drop_paddedMessage, hlen, hbuflen]

/-- A sequence whose first word is answered with a response. -/
theorem runCommands_cons_next {w : Word16} {ws : List Word16} {s s1 t : State} {r : Response} {rs : List Response}
    (hw : runCommand w s = .next s1) (hr : s1.rsp = some r) (hrest : runCommands ws s1 = some (t, rs)) :
    runCommands (w :: ws) s = some (t, r :: rs) := by
  simp [runCommands, hw, hrest, responsesOf, hr]

/-- One UPDATE per byte extends the message of a context, each answered OK (42_update.md R156). -/
theorem runCommands_updateWords {alg : Alg} {m : List Byte} (bytes : List Byte) {s : State}
    (h : contextHolds alg m s) (hmax : 8 * (m ++ bytes).length ≤ 2 ^ alg.counterBits - 8) :
    ∃ t, runCommands (updateWords bytes) s =
        some (t, List.replicate bytes.length { status := .ok, len := 0, data := [] }) ∧
      contextHolds alg (m ++ bytes) t := by
  induction bytes generalizing m s with
  | nil => exact ⟨s, rfl, by rwa [List.append_nil]⟩
  | cons b bytes ih =>
    have hroom : 8 * (m.length + 1) ≤ 2 ^ alg.counterBits - 8 := by
      rw [List.length_append, List.length_cons] at hmax
      omega
    obtain ⟨hexec, hnext⟩ := exec_update_contextHolds b h hroom
    rw [List.append_cons] at hmax ⊢
    obtain ⟨t, hrun, ht⟩ := ih hnext hmax
    have hw : runCommand (encode (.update b)) s = .next (respond .ok [] (updated b s)) :=
      (runCommand_ok (decode_encode rfl) s).trans hexec
    exact ⟨t, runCommands_cons_next hw (respond_rsp ..) hrun, ht⟩

/-- FINALIZE and TOHEX of a context answer the digest of its message and the digest's characters. -/
theorem runCommands_finalize_toHex {alg : Alg} {m : List Byte} {s : State} (h : contextHolds alg m s) :
    ∃ t, runCommands [encode .finalize, encode .toHex] s =
        some (t,
          [{ status := .ok, len := BitVec.ofNat 8 alg.digestBytes, data := hashDigest alg m },
           { status := .ok, len := BitVec.ofNat 8 (2 * alg.digestBytes), data := toHexString (hashDigest alg m) }]) ∧
      t.phase = .done ∧ t.err = .ok ∧ t.alg = alg := by
  have hlt := h.buflen_lt
  have hB := two_blocks_le alg
  have hdigest : serialise alg (paddedCompress s) = hashDigest alg m := by
    rw [paddedCompress_eq_hashState h, hashDigest]
  obtain ⟨hphase, herr, rfl, -, -, -, -, -, -, -⟩ := h
  have hfinalize : runCommand (encode .finalize) s = .next (finalized s) :=
    (runCommand_ok (decode_encode rfl) s).trans (exec_finalize_active hphase (by omega))
  have hprefix : digestPrefix (finalized s).digest (finalized s).alg.digestBytes = hashDigest s.alg m := by
    rw [finalized_digest, finalized_alg, hdigest]
    exact digestPrefix_digestRegister (length_serialise ..) (digestBytes_le s.alg)
  have htoHex : runCommand (encode .toHex) (finalized s) =
      .next (respond .ok (toHexString (hashDigest s.alg m)) (finalized s)) := by
    rw [runCommand_ok (decode_encode rfl), exec_toHex_done (finalized_phase s), hprefix]
  have hlength : (toHexString (hashDigest s.alg m)).length = 2 * s.alg.digestBytes := by
    rw [length_toHexString, hashDigest, length_serialise]
  refine ⟨_, runCommands_cons_next hfinalize ?_ (runCommands_cons_next htoHex ?_ rfl), finalized_phase s,
    (finalized_err s).trans herr, finalized_alg s⟩
  · rw [finalized_rsp, hdigest]
  · rw [respond_rsp, hlength]

/-- Settles O41: the context of the empty message, of every byte in turn, and its FINALIZE and TOHEX. -/
theorem streamedDigestIsDigestOfMessage : Obligations.StreamedDigestIsDigestOfMessage := by
  intro alg m s hmax
  have hinit : runCommand (encode (initCommandOf alg)) s = .next (beginContext alg s) :=
    (runCommand_ok (decode_encode (by cases alg <;> rfl)) s).trans (exec_initCommandOf alg s)
  obtain ⟨s1, hupdates, hs1⟩ := runCommands_updateWords m (contextHolds_beginContext alg s) hmax
  obtain ⟨t, hend, hfields⟩ := runCommands_finalize_toHex hs1
  refine ⟨t, ?_, hfields⟩
  rw [List.append_assoc, List.singleton_append, List.replicate_succ, List.cons_append]
  refine runCommands_cons_next hinit (beginContext_rsp alg s) ?_
  rw [runCommands_append, hupdates, Option.bind_some, hend]
  rfl

end Sys2Proof.Machine
end

section
/-! FINALIZE's padding steps byte by byte, its outcome register by register, its padding FSM and the closed
form of the padded data (43_finalize_padding.md R170 to R179). -/

namespace Sys2Proof.Machine

/-- Settles O13: the two cases of the padded length, for each of the two kinds of sizes. -/
theorem paddingTakesOneOrTwoBlocks : Obligations.PaddingTakesOneOrTwoBlocks := by
  intro alg r _
  have hP := paddedLength_cases alg r
  rcases alg_sizes alg with ⟨hB, hL, -⟩ | ⟨hB, hL, -⟩ <;> rw [hB, hL] at hP ⊢ <;> omega

/-- What an address reads in a buffer padded from `r` on: the 0x80 byte, the zeros up to the length field, the
length field, and outside of them the byte that was there. -/
theorem read_paddedBuffer {s : State} (hwf : s.buf.wf = true) (hlt : s.buflen.toNat < s.alg.blockSize) (a : Nat) :
    (paddedBuffer s).read a =
      if a < s.buflen.toNat then s.buf.read a
      else if a = s.buflen.toNat then 0x80
      else if a < paddedLength s.alg s.buflen.toNat - s.alg.lengthBytes then 0x00
      else if a < paddedLength s.alg s.buflen.toNat then
        (lengthField s.alg s.len).getD (a - (paddedLength s.alg s.buflen.toNat - s.alg.lengthBytes)) 0
      else s.buf.read a := by
  have hfits := paddedLength_fits hlt
  have hP := paddedLength_le s.alg s.buflen.toNat
  unfold paddedBuffer
  dsimp only
  generalize paddedLength s.alg s.buflen.toNat = P at hfits hP ⊢
  have hzeros := List.length_replicate (n := P - s.alg.lengthBytes - (s.buflen.toNat + 1)) (a := (0x00 : Byte))
  have hfield := length_lengthField s.alg s.len
  have hwf80 := Memory.wf_write (v := 0x80) hwf (by omega : s.buflen.toNat < 256)
  have hwf00 := Memory.wf_writeBytes hwf80 (by omega :
    s.buflen.toNat + 1 + (List.replicate (P - s.alg.lengthBytes - (s.buflen.toNat + 1)) (0x00 : Byte)).length ≤ 256)
  rw [Memory.read_writeBytes a hwf00 (by omega), Memory.read_writeBytes a hwf80 (by omega),
    Memory.read_write _ _ a hwf, hzeros, hfield]
  by_cases hpending : a < s.buflen.toNat
  · rw [if_neg (by omega), if_neg (by omega), if_neg (by omega), if_pos hpending]
  rw [if_neg hpending]
  by_cases h80 : a = s.buflen.toNat
  · rw [if_neg (by omega), if_neg (by omega), if_pos h80, if_pos h80]
  simp only [if_neg h80]
  by_cases h00 : a < P - s.alg.lengthBytes
  · rw [if_neg (by omega), if_pos (by omega), if_pos h00, List.getD_replicate _ (by omega)]
  rw [if_neg h00]
  by_cases hlast : a < P
  · rw [if_pos (by omega), if_pos hlast]
  · rw [if_neg (by omega), if_neg (by omega), if_neg hlast]

/-- Settles O14: the three steps leave `paddedBuffer`, and its length field is read byte by byte. -/
theorem paddingLayout : Obligations.PaddingLayout := by
  intro s hwf hlt
  have hB := two_blocks_le s.alg
  have hfits := paddedLength_fits hlt
  have hrange : s.buflen.toNat < 256 := by omega
  refine ⟨_, _, _, pad80_eq hrange, padZero_eq hrange, padLength_eq _, toNat_paddedLength .., fun a => ?_⟩
  refine (read_paddedBuffer hwf hlt a).trans ?_
  obtain ⟨-, hbyte⟩ := lengthFieldByteOrder s.alg s.len
  split_ifs with hpending h80 h00 hlast hmd5
  · rfl
  · rfl
  · rfl
  · rw [hbyte _ (by omega), if_pos hmd5]
  · rw [hbyte _ (by omega), if_neg hmd5]
  · rfl

/-- The digest register byte by byte (48_digest_format.md R320). -/
theorem getElem_digestRegister {bytes : List Byte} {n : Nat} (h : bytes.length = n) (k : Fin 64) :
    (digestRegister bytes)[k] = if k.val < n then bytes.getD k.val 0 else 0x00 := by
  have hbyte : (digestRegister bytes)[k] = bytes.getD k.val 0x00 := Vector.getElem_ofFn ..
  split
  · exact hbyte
  · next hk => rw [hbyte, List.getD_eq_default _ _ (h ▸ not_lt.mp hk)]

/-- Settles O16: FINALIZE leaves `finalized`, whose `H` is the fold over the padded pending bytes. -/
theorem finalizePadsCompressesAndWipes : Obligations.FinalizePadsCompressesAndWipes := by
  intro s hphase hwf hlt
  have hB := two_blocks_le s.alg
  refine ⟨finalized s, exec_finalize_active hphase (by omega), ?_, fun k => ?_, ?_⟩
  · rw [finalized_h, paddedCompress_eq_hashBlocks, readBytes_paddedBuffer hwf hlt, padZeros, Nat.sub_sub _ 1,
      Nat.add_comm 1]
  · rw [finalized_h, finalized_digest]
    exact getElem_digestRegister (length_serialise ..) k
  · rw [finalized_buf, finalized_h]
    exact ⟨Memory.read_zeroed, Memory.wf_zeroed, finalized_buflen s, finalized_phase s, finalized_rsp s,
      length_serialise .., finalized_len s, finalized_alg s, finalized_err s⟩

/-- The micro-states SERIALISE and WIPE end FINALIZE with its response. -/
theorem runMicro_serialise (fuel : Nat) (s : State) :
    runMicro padMicroStep (fuel + 2) .serialise s =
      some (.next (respondDigest (wipeBuffer (storeDigest s)))) := rfl

/-- From COMPRESS0 on, with or without COMPRESS1, the FSM does what FINALIZE does with a padded buffer. -/
theorem runMicro_compress0 (s : State) :
    runMicro padMicroStep 4 .compress0 s =
      some (orBufferFault ((compressPadded s).map fun t => respondDigest (wipeBuffer (storeDigest t)))) := by
  rw [compressPadded, runMicro, padMicroStep, compressBlock_eq (Nat.zero_le 1), microGoto]
  dsimp only [Option.bind_eq_bind, Option.bind_some]
  split
  · rw [runMicro, padMicroStep, compressBlock_eq (Nat.le_refl 1)]
    exact runMicro_serialise 0 _
  · exact runMicro_serialise 1 _

/-- A micro-state of accesses that may be out of range: the run goes on after them or ends with their fault. -/
theorem runMicro_of_microGoto {μ : Type} {next : μ → State → MicroNext μ} {m m' : μ} {s : State}
    {access : Option State} (h : next m s = microGoto (fun _ => m') access) (fuel : Nat) :
    runMicro next (fuel + 1) m s = access.elim (some (.fault .bufferRange)) (runMicro next fuel m') := by
  rw [runMicro, h]
  cases access <;> rfl

/-- Settles O17: each padding step goes on or faults as the bind of FINALIZE does, up to COMPRESS0. -/
theorem paddingFsmRefinesFinalize : Obligations.PaddingFsmRefinesFinalize := by
  intro s hphase
  rw [exec_finalize, execFinalize, if_neg (not_not.mpr hphase), padAndCompress, runMicro_of_microGoto rfl]
  cases pad80 s with
  | none => rfl
  | some s1 =>
    rw [Option.elim_some, runMicro_of_microGoto rfl]
    dsimp only [Option.bind_eq_bind, Option.bind_some]
    cases padZero s1 with
    | none => rfl
    | some s2 =>
      rw [Option.elim_some, runMicro_of_microGoto rfl]
      dsimp only [Option.bind_some]
      cases padLength s2 with
      | none => rfl
      | some s3 => exact runMicro_compress0 s3

theorem length_paddedMessage (alg : Alg) (m : List Byte) :
    (paddedMessage alg m).length = m.length + 1 + zeroCount alg m.length + alg.lengthBytes := by
  simp only [paddedMessage, List.length_append, List.length_singleton, List.length_replicate, length_lengthField]

/-- The zero bytes are fewer than a block and fill the padded data up to whole blocks
(43_finalize_padding.md R177). -/
theorem zeroCount_completes_block (alg : Alg) (N : Nat) :
    zeroCount alg N < alg.blockSize ∧ (N + 1 + zeroCount alg N + alg.lengthBytes) % alg.blockSize = 0 := by
  unfold zeroCount
  rcases alg_sizes alg with ⟨hB, hL, -⟩ | ⟨hB, hL, -⟩ <;> rw [hB, hL] <;> omega

/-- Settles O18: the parts of `paddedMessage` by their lengths, and the count of blocks by the remainder. -/
theorem paddedDataClosedForm : Obligations.PaddedDataClosedForm := by
  intro alg m
  have hlength := length_paddedMessage alg m
  obtain ⟨hfew, hwhole⟩ := zeroCount_completes_block alg m.length
  have h80 : (m ++ [(0x80 : Byte)]).length = m.length + 1 := List.length_append
  have h00 : (m ++ [0x80] ++ List.replicate (zeroCount alg m.length) (0x00 : Byte)).length =
      (paddedMessage alg m).length - alg.lengthBytes := by
    rw [List.length_append, h80, List.length_replicate]
    omega
  refine ⟨hlength ▸ hwhole, by omega, by omega, ?_, fun k hlow hhigh => ?_, List.drop_left' h00, ?_⟩
  · rw [paddedMessage, List.append_assoc]
    exact List.take_left' h80
  · rw [paddedMessage, List.getElem?_append_left (h00 ▸ hhigh), List.getElem?_append_right (h80 ▸ hlow),
      List.getElem?_replicate, if_pos (by omega)]
  · have hB := blockSize_pos alg
    rw [paddedBlocks_eq, paddedLength]
    split
    · rw [Nat.div_self hB]
    · rw [Nat.mul_div_cancel _ hB]

end Sys2Proof.Machine
end

section
/-! MD5Compress step by step and in RFC 1321's form (44_md5_compress.md R203 to R208, R211), and the final addition
of the four units (R209, 45_sha1_compress.md R240, 46_sha256_compress.md R270, 47_sha512_compress.md R300). -/

namespace Sys2Proof.Machine

/-- Settles O56: each column is a table of numerals. -/
theorem md5StepTable : Obligations.Md5StepTable := ⟨rfl, rfl, rfl⟩

/-- Settles O52: `compress` by the unit of the algorithm. -/
theorem compressAddsIntoStateWords : Obligations.CompressAddsIntoStateWords := by
  intro alg h M
  unfold compress
  refine ⟨fun hunit => ?_, fun hunit => ?_, fun hunit => ?_, fun hunit => ?_⟩ <;> rw [hunit] <;> rfl

/-- One MD5 step: the new `b` is RFC 1321's value, the other registers move on (R205 to R208). -/
theorem md5Step_eq (X : List Word32) (r : Md5Regs) (i : Nat) :
    md5Step X r i = { a := r.d, b := md5RfcValue X i r.a r.b r.c r.d, c := r.b, d := r.c } := by
  unfold md5Step md5RfcValue md5Value
  split_ifs <;> rfl

theorem md5Steps_succ (Hin : Md5Regs) (M : List Byte) (k : Nat) :
    md5Steps Hin M (k + 1) = md5Step (md5Load M) (md5Steps Hin M k) k := by
  rw [md5Steps, List.range_succ, List.foldl_append]
  rfl

theorem md5RfcSteps_succ (Hin : Md5Regs) (M : List Byte) (k : Nat) :
    md5RfcSteps Hin M (k + 1) = md5RfcStep (md5Load M) (md5RfcSteps Hin M k) k := by
  rw [md5RfcSteps, List.range_succ, List.foldl_append]
  rfl

theorem md5G_lt {i : Nat} (hi : i < 64) : md5G i < 16 := by
  unfold md5G
  split_ifs <;> omega

/-- Word `g` of the load is `LE32dec` of bytes `4g` to `4g + 3` (R201). -/
theorem getD_md5Load (M : List Byte) {g : Nat} (hg : g < 16) : (md5Load M).getD g 0 = le32word M g := by
  rw [md5Load, List.getD_eq_getElem _ _ (by simpa using hg), List.getElem_map, List.getElem_range]

/-- Settles O49: one step of the fold, with the bounds of the rounds inclusive in the model. -/
theorem md5StepEquations : Obligations.Md5StepEquations := by
  refine ⟨fun Hin M => rfl, fun Hin M i hi => ?_⟩
  rw [md5Steps_succ, md5Step_eq, md5RfcValue, getD_md5Load M (md5G_lt hi)]
  simp only [md5Value, md5S, md5G, ← Nat.lt_succ_iff]
  rfl

/-- The registers before step `i` of RFC 1321's form, `[abcd]`, `[dabc]`, `[cdab]`, `[bcda]` in turn, in the order of
their roles (R211). -/
def md5Roles (i : Nat) (R : Md5Regs) : Md5Regs :=
  match i % 4 with
  | 0 => R
  | 1 => { a := R.d, b := R.a, c := R.b, d := R.c }
  | 2 => { a := R.c, b := R.d, c := R.a, d := R.b }
  | _ => { a := R.b, b := R.c, c := R.d, d := R.a }

/-- A step on the registers in the order of their roles is RFC 1321's step on the fixed registers. -/
theorem md5Step_md5Roles (X : List Word32) (R : Md5Regs) (i : Nat) :
    md5Step X (md5Roles i R) i = md5Roles (i + 1) (md5RfcStep X R i) := by
  rw [md5Step_eq]
  unfold md5Roles md5RfcStep
  rw [Nat.add_mod]
  have hrole : i % 4 < 4 := Nat.mod_lt i (by decide)
  generalize i % 4 = role at hrole
  match role, hrole with | 0, _ | 1, _ | 2, _ | 3, _ => rfl

theorem md5Steps_eq_md5Roles (Hin : Md5Regs) (M : List Byte) (k : Nat) :
    md5Steps Hin M k = md5Roles k (md5RfcSteps Hin M k) := by
  induction k with
  | zero => rfl
  | succ k ih => rw [md5Steps_succ, ih, md5Step_md5Roles, md5RfcSteps_succ]

/-- Settles O55: after a multiple of four steps the roles are the registers' own names. -/
theorem md5PublishedFormAgrees : Obligations.Md5PublishedFormAgrees := fun Hin M =>
  (md5Steps_eq_md5Roles Hin M 64).symm

end Sys2Proof.Machine
end

section
/-! The constants `T` as sines (44_md5_compress.md R202). `sin n` is the imaginary part of `exp(i)^n`; `exp i` is
approximated by its Taylor polynomial, a Gaussian integer over a factorial, whose powers are computed exactly. -/

namespace Sys2Proof.Machine

open scoped Nat

/-- Powers in the unit disc differ by at most the exponent times the difference of the bases. -/
theorem norm_pow_sub_pow_le {z w : ℂ} (hz : ‖z‖ ≤ 1) (hw : ‖w‖ ≤ 1) (n : ℕ) :
    ‖z ^ n - w ^ n‖ ≤ n * ‖z - w‖ := by
  induction n with
  | zero => simp
  | succ n ih =>
    have hzn : ‖z ^ n‖ ≤ 1 := norm_pow z n ▸ pow_le_one₀ (norm_nonneg z) hz
    calc ‖z ^ (n + 1) - w ^ (n + 1)‖
      _ = ‖z ^ n * (z - w) + (z ^ n - w ^ n) * w‖ := by congr 1; ring
      _ ≤ ‖z ^ n‖ * ‖z - w‖ + ‖z ^ n - w ^ n‖ * ‖w‖ := by
        simpa only [norm_mul] using norm_add_le (z ^ n * (z - w)) ((z ^ n - w ^ n) * w)
      _ ≤ 1 * ‖z - w‖ + n * ‖z - w‖ * 1 := by gcongr
      _ = (n + 1 : ℕ) * ‖z - w‖ := by push_cast; ring

/-- `k!` times the Taylor polynomial of degree `k` of `exp` at `i`. -/
def scaledExpI : Nat → GaussianInt
  | 0 => 1
  | k + 1 => (k + 1 : ℕ) * scaledExpI k + ⟨0, 1⟩ ^ (k + 1)

theorem toComplex_scaledExpI (k : ℕ) :
    (scaledExpI k).toComplex = k ! * ∑ m ∈ Finset.range (k + 1), Complex.I ^ m / m ! := by
  induction k with
  | zero => simp [scaledExpI]
  | succ k ih =>
    have hk : (k ! : ℂ) ≠ 0 := Nat.cast_ne_zero.mpr k.factorial_ne_zero
    have hk1 : ((k + 1 : ℕ) : ℂ) ≠ 0 := Nat.cast_ne_zero.mpr k.succ_ne_zero
    have hI : GaussianInt.toComplex ⟨0, 1⟩ = Complex.I := by simp [GaussianInt.toComplex_def']
    rw [scaledExpI, map_add, map_mul, map_natCast, map_pow, hI, ih, Finset.sum_range_succ _ (k + 1),
      Nat.factorial_succ, Nat.cast_mul, mul_add, mul_assoc, mul_div_cancel₀ _ (mul_ne_zero hk1 hk)]

/-- The Taylor polynomial of degree 19 of `exp` at `i`; the degree makes the error of its 64th power less than `2^-54`. -/
noncomputable def taylorExpI : ℂ := (scaledExpI 19).toComplex / 19 !

theorem norm_exp_I_sub_taylorExpI_le : ‖Complex.exp Complex.I - taylorExpI‖ ≤ 1 / 2 ^ 60 := by
  have h19 : (19 ! : ℂ) ≠ 0 := Nat.cast_ne_zero.mpr (Nat.factorial_ne_zero 19)
  rw [taylorExpI, toComplex_scaledExpI, mul_div_cancel_left₀ _ h19]
  refine (Complex.exp_bound Complex.norm_I.le (by decide : 0 < 20)).trans ?_
  norm_num [Nat.factorial]

theorem norm_taylorExpI_le_one : ‖taylorExpI‖ ≤ 1 := by
  have hnorm : (scaledExpI 19).norm ≤ (19 ! : ℤ) ^ 2 := by decide +kernel
  rw [taylorExpI, norm_div, Complex.norm_natCast, div_le_one (by positivity),
    ← sq_le_sq₀ (norm_nonneg _) (by positivity), ← Complex.normSq_eq_norm_sq, ← GaussianInt.intCast_real_norm]
  exact_mod_cast hnorm

theorem im_taylorExpI_pow (n : ℕ) :
    (taylorExpI ^ n).im = ((scaledExpI 19 ^ n).im : ℝ) / (19 ! : ℝ) ^ n := by
  rw [taylorExpI, div_pow, ← map_pow, GaussianInt.intCast_im, ← Nat.cast_pow, Complex.div_natCast_im, Nat.cast_pow]

theorem abs_sin_sub_le {n : ℕ} (hn : n ≤ 64) : |Real.sin n - (taylorExpI ^ n).im| ≤ 1 / 2 ^ 54 := by
  have hsin : Real.sin n = (Complex.exp Complex.I ^ n).im := by
    rw [← Complex.exp_nat_mul, ← Complex.ofReal_natCast, Complex.exp_ofReal_mul_I_im]
  have hexp : ‖Complex.exp Complex.I‖ ≤ 1 := by simpa using (Complex.norm_exp_ofReal_mul_I 1).le
  calc |Real.sin n - (taylorExpI ^ n).im|
    _ = |(Complex.exp Complex.I ^ n - taylorExpI ^ n).im| := by rw [hsin, Complex.sub_im]
    _ ≤ ‖Complex.exp Complex.I ^ n - taylorExpI ^ n‖ := Complex.abs_im_le_norm _
    _ ≤ n * ‖Complex.exp Complex.I - taylorExpI‖ := norm_pow_sub_pow_le hexp norm_taylorExpI_le_one n
    _ ≤ 64 * (1 / 2 ^ 60) := by
      gcongr
      · exact_mod_cast hn
      · exact norm_exp_I_sub_taylorExpI_le
    _ = 1 / 2 ^ 54 := by norm_num

/-- `T` is the floor of `2^32` times the absolute value of the approximated sine of `n`, with a margin of `2^-22` on
both sides. -/
abbrev isScaledSine (n T : Nat) : Prop :=
  (2 ^ 22 * T + 1) * 19 ! ^ n ≤ 2 ^ 54 * (scaledExpI 19 ^ n).im.natAbs ∧
  2 ^ 54 * (scaledExpI 19 ^ n).im.natAbs + 19 ! ^ n < 2 ^ 22 * (T + 1) * 19 ! ^ n

theorem floor_abs_sin_eq {n T : ℕ} (hn : n ≤ 64) (h : isScaledSine n T) : ⌊2 ^ 32 * |Real.sin n|⌋₊ = T := by
  obtain ⟨hlow, hhigh⟩ := h
  have hD : (0 : ℝ) < (19 ! : ℝ) ^ n := by positivity
  have him : |(taylorExpI ^ n).im| * (19 ! : ℝ) ^ n = ((scaledExpI 19 ^ n).im.natAbs : ℝ) := by
    rw [im_taylorExpI_pow, abs_div, abs_of_pos hD, div_mul_cancel₀ _ hD.ne', Nat.cast_natAbs, Int.cast_abs]
  have hlow' : 2 ^ 22 * (T : ℝ) + 1 ≤ 2 ^ 54 * |(taylorExpI ^ n).im| := by
    refine le_of_mul_le_mul_right ?_ hD
    rw [mul_assoc (2 ^ 54), him]
    exact_mod_cast hlow
  have hhigh' : 2 ^ 54 * |(taylorExpI ^ n).im| + 1 < 2 ^ 22 * ((T : ℝ) + 1) := by
    refine lt_of_mul_lt_mul_right ?_ hD.le
    rw [add_mul, mul_assoc (2 ^ 54), him, one_mul]
    exact_mod_cast hhigh
  obtain ⟨hge, hle⟩ := abs_le.mp ((abs_abs_sub_abs_le _ _).trans (abs_sin_sub_le hn))
  rw [Nat.floor_eq_iff (by positivity)]
  constructor <;> linarith

theorem md5T_scaledSine : ∀ i < 64, isScaledSine (i + 1) (md5T.getD i 0).toNat := by decide +kernel

/-- Settles O57: the margin of each of the 64 constants exceeds the error of the approximated sine. -/
theorem md5ConstantsAreSines : Obligations.Md5ConstantsAreSines := by
  refine ⟨rfl, fun i hi => ?_⟩
  rw [← Nat.cast_add_one, floor_abs_sin_eq hi (md5T_scaledSine i hi)]

end Sys2Proof.Machine
end

section
/-! The message schedules word by word (45_sha1_compress.md R231, R232, 46_sha256_compress.md R261, R262,
47_sha512_compress.md R291, R292): the argument once, for any recurrence, then the three SHA units. -/

namespace Sys2Proof.Machine

section
variable {w : Nat} (next : List (BitVec w) → BitVec w) (W : List (BitVec w))

theorem take_iterate_appendNext {n k : Nat} (h : n ≤ k) :
    ((appendNext next)^[k] W).take (W.length + n) = (appendNext next)^[n] W := by
  induction k, h using Nat.le_induction with
  | base => exact List.take_of_length_le (length_iterate_appendNext next W n).le
  | succ k h ih =>
    have hle : W.length + n ≤ ((appendNext next)^[k] W).length := by
      rw [length_iterate_appendNext]
      omega
    rw [Function.iterate_succ_apply', appendNext, List.take_append_of_le_length hle, ih]

/-- An appended word is the recurrence on the words before it. -/
theorem getD_iterate_appendNext_eq_next {n k : Nat} (h : n < k) :
    ((appendNext next)^[k] W).getD (W.length + n) 0 =
      next (((appendNext next)^[k] W).take (W.length + n)) := by
  have hlen := length_iterate_appendNext next W n
  rw [take_iterate_appendNext next W h.le, getD_iterate_appendNext next W (j := k) (k := n + 1) (by omega) (by omega),
    Function.iterate_succ_apply', appendNext, List.getD_append_right _ _ _ _ hlen.le, hlen, Nat.sub_self]
  rfl

end

/-- Sixteen loaded words, then `k` more by the recurrence `next`. -/
def scheduleOf {w : Nat} (next : List (BitVec w) → BitVec w) (word : Nat → BitVec w) (k : Nat) : List (BitVec w) :=
  (appendNext next)^[k] ((List.range 16).map word)

theorem sha1Schedule_eq (M : List Byte) : sha1Schedule M = scheduleOf sha1NextWord (be32word M) 64 :=
  sha1Expand_eq_iterate _ _

theorem sha256Schedule_eq (M : List Byte) : sha256Schedule M = scheduleOf sha256NextWord (be32word M) 48 :=
  sha256Expand_eq_iterate _ _

theorem sha512Schedule_eq (M : List Byte) : sha512Schedule M = scheduleOf sha512NextWord (be64word M) 64 :=
  sha512Expand_eq_iterate _ _

section
variable {w : Nat} (next : List (BitVec w) → BitVec w) (word : Nat → BitVec w) (k : Nat)

theorem length_scheduleOf : (scheduleOf next word k).length = 16 + k :=
  length_iterate_appendNext next _ k

theorem getD_scheduleOf_of_lt {t : Nat} (ht : t < 16) : (scheduleOf next word k).getD t 0 = word t := by
  have hlen : t < ((List.range 16).map word).length := ht
  rw [scheduleOf, getD_iterate_appendNext next _ (j := k) (k := 0) (by omega) hlen, Function.iterate_zero_apply,
    List.getD_eq_getElem _ _ hlen, List.getElem_map, List.getElem_range]

theorem getD_scheduleOf_of_le {t : Nat} (hle : 16 ≤ t) (ht : t < 16 + k) :
    (scheduleOf next word k).getD t 0 = next ((scheduleOf next word k).take t) := by
  obtain ⟨n, rfl⟩ := Nat.exists_eq_add_of_le hle
  exact getD_iterate_appendNext_eq_next next ((List.range 16).map word) (by omega)

end

/-- A word before word `t` can be read from the first `t` words; a recurrence reads no others. -/
theorem getD_take_sub {w t back : Nat} (W : List (BitVec w)) (hback : 0 < back) (hle : back ≤ t) :
    (W.take t).getD (t - back) 0 = W.getD (t - back) 0 := by
  rw [List.getD_eq_getElem?_getD, List.getElem?_take_of_lt (by omega), ← List.getD_eq_getElem?_getD]

theorem sha1NextWord_take {W : List Word32} {t : Nat} (h16 : 16 ≤ t) (ht : t ≤ W.length) :
    sha1NextWord (W.take t) =
      rotl (W.getD (t - 3) 0 ^^^ W.getD (t - 8) 0 ^^^ W.getD (t - 14) 0 ^^^ W.getD (t - 16) 0) 1 := by
  simp (disch := omega) only [sha1NextWord, List.length_take_of_le, getD_take_sub]

theorem sha256NextWord_take {W : List Word32} {t : Nat} (h16 : 16 ≤ t) (ht : t ≤ W.length) :
    sha256NextWord (W.take t) =
      sha256SmallSigma1 (W.getD (t - 2) 0) + W.getD (t - 7) 0 + sha256SmallSigma0 (W.getD (t - 15) 0) +
        W.getD (t - 16) 0 := by
  simp (disch := omega) only [sha256NextWord, List.length_take_of_le, getD_take_sub]

theorem sha512NextWord_take {W : List Word64} {t : Nat} (h16 : 16 ≤ t) (ht : t ≤ W.length) :
    sha512NextWord (W.take t) =
      sha512SmallSigma1 (W.getD (t - 2) 0) + W.getD (t - 7) 0 + sha512SmallSigma0 (W.getD (t - 15) 0) +
        W.getD (t - 16) 0 := by
  simp (disch := omega) only [sha512NextWord, List.length_take_of_le, getD_take_sub]

/-- Settles O47: each schedule is a `scheduleOf`, whose later words are its recurrence on the words before. -/
theorem scheduleRecurrences : Obligations.ScheduleRecurrences := by
  intro M
  rw [sha1Schedule_eq, sha256Schedule_eq, sha512Schedule_eq]
  refine ⟨⟨length_scheduleOf _ _ _, fun t ht => getD_scheduleOf_of_lt _ _ _ ht, fun t h16 ht => ?_⟩,
    ⟨length_scheduleOf _ _ _, fun t ht => getD_scheduleOf_of_lt _ _ _ ht, fun t h16 ht => ?_⟩,
    ⟨length_scheduleOf _ _ _, fun t ht => getD_scheduleOf_of_lt _ _ _ ht, fun t h16 ht => ?_⟩⟩
  · rw [getD_scheduleOf_of_le _ _ _ h16 ht, sha1NextWord_take h16 (length_scheduleOf _ _ _ ▸ ht.le)]
  · rw [getD_scheduleOf_of_le _ _ _ h16 ht, sha256NextWord_take h16 (length_scheduleOf _ _ _ ▸ ht.le)]
    rfl
  · rw [getD_scheduleOf_of_le _ _ _ h16 ht, sha512NextWord_take h16 (length_scheduleOf _ _ _ ▸ ht.le)]
    rfl

end Sys2Proof.Machine
end

section
/-! SHA1Compress round by round (45_sha1_compress.md R233 to R239). -/

namespace Sys2Proof.Machine

theorem sha1Rounds_succ (Hin : Sha1Regs) (M : List Byte) (k : Nat) :
    sha1Rounds Hin M (k + 1) = sha1RoundWith k ((sha1Schedule M).getD k 0) (sha1Rounds Hin M k) := by
  rw [sha1Rounds, List.range_succ, List.foldl_append]
  rfl

/-- The function of round `t` (R235), by the operation the round counter selects. -/
def sha1Value (t : Nat) (x y z : Word32) : Word32 :=
  if t < 20 then sha1Ch x y z
  else if t < 40 then sha1Parity x y z
  else if t < 60 then sha1Maj x y z
  else sha1Parity x y z

/-- The constant of round `t` (R233). -/
def sha1Constant (t : Nat) : Word32 :=
  if t < 20 then 0x5A827999 else if t < 40 then 0x6ED9EBA1 else if t < 60 then 0x8F1BBCDC else 0xCA62C1D6

/-- The four round operations are one data flow with the function and the constant of their rounds (R236 to R239). -/
theorem sha1RoundWith_eq (t : Nat) (Wt : Word32) (r : Sha1Regs) :
    sha1RoundWith t Wt r = sha1Shift (sha1Value t r.b r.c r.d) (sha1Constant t) Wt r := by
  simp only [sha1RoundWith, sha1Value, sha1Constant, Nat.lt_succ_iff]
  split_ifs <;> rfl

/-- Settles O50: one round of the fold, its function and its constant selected by `t`. -/
theorem sha1RoundEquations : Obligations.Sha1RoundEquations := by
  refine ⟨fun Hin M => rfl, fun Hin M t _ => ?_⟩
  rw [sha1Rounds_succ, sha1RoundWith_eq]
  rfl

end Sys2Proof.Machine
end

section
/-! The two SHA-2 units round by round (46_sha256_compress.md R263 to R269, 47_sha512_compress.md R293 to R299). -/

namespace Sys2Proof.Machine

theorem sha256Rounds_succ (Hin : Sha2Regs 32) (M : List Byte) (k : Nat) :
    sha256Rounds Hin M (k + 1) = sha256RoundWith k ((sha256Schedule M).getD k 0) (sha256Rounds Hin M k) := by
  rw [sha256Rounds, List.range_succ, List.foldl_append]
  rfl

theorem sha512Rounds_succ (Hin : Sha2Regs 64) (M : List Byte) (k : Nat) :
    sha512Rounds Hin M (k + 1) = sha512RoundWith k ((sha512Schedule M).getD k 0) (sha512Rounds Hin M k) := by
  rw [sha512Rounds, List.range_succ, List.foldl_append]
  rfl

/-- Settles O51: one round of each fold is the rotation of the registers by `T1` and `T2`. -/
theorem sha2RoundEquations : Obligations.Sha2RoundEquations := by
  refine ⟨fun Hin M => rfl, fun Hin M => rfl, fun Hin M t _ => ?_, fun Hin M t _ => ?_⟩
  · rw [sha256Rounds_succ]
    rfl
  · rw [sha512Rounds_succ]
    rfl

/-- If `k` is the last base-`b` digit of the integer cube root of `N`, some number ending in `k` brackets `N` by cubes. -/
theorem exists_cubes_of_nthRoot_mod_eq {N b k : Nat} (h : Nat.nthRoot 3 N % b = k) :
    ∃ q, (q * b + k) ^ 3 ≤ N ∧ N < (q * b + k + 1) ^ 3 := by
  refine ⟨Nat.nthRoot 3 N / b, ?_⟩
  rw [← h, Nat.div_add_mod']
  exact ⟨Nat.pow_nthRoot_le (.inl three_ne_zero), Nat.lt_pow_nthRoot_add_one three_ne_zero N⟩

/-- Settles O48: the integer cube root of `p * 2^192` is that of `p` followed by the first 64 bits of its fraction; its low
64 bits are computed for each of the 80 primes, and the high halves of `K512` are compared with `K256`. -/
theorem roundConstantsAreCubeRoots : Obligations.RoundConstantsAreCubeRoots := by
  refine ⟨rfl, rfl, fun t ht => exists_cubes_of_nthRoot_mod_eq ?_, by decide +kernel⟩
  revert t
  decide +kernel

end Sys2Proof.Machine
end

section
/-! A core without a usable context (70_reset_and_hazards.md R381, 10_state.md R36 (c)). -/

namespace Sys2Proof.Machine

/-- What the next states of two cores that differ only in the context registers have in common. -/
def alikeWithoutContext (s t : State) : Prop :=
  s = t ∨ (sameOutsideContext s t ∧ (s.phase = .uninit ∨ s.phase = .failed))

theorem alikeWithoutContext_raise (e : ErrorKind) {s t : State} (h : sameOutsideContext s t) :
    alikeWithoutContext (raise e s) (raise e t) :=
  .inr ⟨sameOutsideContext_raise e h, .inr rfl⟩

/-- In phase UNINIT or FAILED a command is an INIT, which overwrites the whole context, or it raises before it
reads any of it. -/
theorem exec_alikeWithoutContext (i : Instr) {s t : State} (h : sameOutsideContext s t)
    (hactive : s.phase ≠ .active) (hdone : s.phase ≠ .done) :
    ∃ s' t', exec i s = .next s' ∧ exec i t = .next t' ∧ alikeWithoutContext s' t' := by
  have hphase : s.phase = t.phase := h.1
  rcases instr_cases i with ⟨alg, rfl⟩ | ⟨selector, rfl⟩ | ⟨data, rfl⟩ | rfl | rfl
  · exact ⟨_, _, exec_initCommandOf alg s, exec_initCommandOf alg t,
      .inl (beginContext_eq_of_sameOutsideContext alg h)⟩
  · exact ⟨_, _, exec_initUndef selector s, exec_initUndef selector t, alikeWithoutContext_raise _ h⟩
  · exact ⟨_, _, exec_update_of_ne_active data hactive, exec_update_of_ne_active data (hphase ▸ hactive),
      alikeWithoutContext_raise _ h⟩
  · exact ⟨_, _, exec_finalize_of_ne_active hactive, exec_finalize_of_ne_active (hphase ▸ hactive),
      alikeWithoutContext_raise _ h⟩
  · exact ⟨_, _, exec_toHex_of_ne_done hdone, exec_toHex_of_ne_done (hphase ▸ hdone),
      alikeWithoutContext_raise _ h⟩

/-- Every event takes two cores that differ only in the context registers alike. -/
theorem runEvent_alikeWithoutContext (e : HostEvent) {s t : State} (h : sameOutsideContext s t)
    (hactive : s.phase ≠ .active) (hdone : s.phase ≠ .done) :
    ∃ s' t', runEvent e s = .next s' ∧ runEvent e t = .next t' ∧ alikeWithoutContext s' t' := by
  cases e with
  | rst => exact ⟨_, _, rfl, rfl, .inr ⟨sameOutsideContext_resetEvent h, .inl (resetEvent_phase s)⟩⟩
  | cmd w =>
    simp only [runEvent]
    cases hw : decode w with
    | error =>
      exact ⟨_, _, runCommand_error hw s, runCommand_error hw t, alikeWithoutContext_raise _ h⟩
    | ok i =>
      rw [runCommand_ok hw, runCommand_ok hw]
      exact exec_alikeWithoutContext i h hactive hdone

/-- Settles O2: an idle step keeps the two states, and the next event of the common stream takes them alike. -/
theorem contextUnobservableBeforeInit : Obligations.ContextUnobservableBeforeInit := by
  intro s t h hphase
  have hactive : s.phase ≠ .active := by rcases hphase with hp | hp <;> simp [hp]
  have hdone : s.phase ≠ .done := by rcases hphase with hp | hp <;> simp [hp]
  obtain ⟨hphases, herr, hinput, hrsp, hresets⟩ := id h
  cases hin : s.input with
  | nil => exact ⟨s, t, by rw [step, hin], by rw [step, ← hinput, hin], .inr ⟨h, hphase⟩⟩
  | cons e rest =>
    rw [step_cons hin, step_cons (hinput ▸ hin)]
    exact runEvent_alikeWithoutContext e ⟨hphases, herr, rfl, hrsp, hresets⟩ hactive hdone

end Sys2Proof.Machine
end

section
/-! The characters of a digest and TOHEX (48_digest_format.md R323 to R327). -/

namespace Sys2Proof.Machine

/-- The code of a character (R323): no sum of it wraps in eight bits. -/
theorem toNat_hexChar (v : BitVec 4) :
    (hexChar v).toNat = if v.toNat ≤ 9 then 0x30 + v.toNat else 0x61 + (v.toNat - 10) := by
  unfold hexChar
  split <;> bv_omega

theorem toHexString_cons (b : Byte) (bytes : List Byte) :
    toHexString (b :: bytes) = hexChar (b.extractLsb' 4 4) :: hexChar (b.extractLsb' 0 4) :: toHexString bytes := rfl

/-- Characters `2k` and `2k + 1` are those of byte `k`, high nibble first (R324). -/
theorem getD_toHexString {bytes : List Byte} {k : Nat} (hk : k < bytes.length) :
    (toHexString bytes).getD (2 * k) 0 = hexChar ((bytes.getD k 0).extractLsb' 4 4) ∧
    (toHexString bytes).getD (2 * k + 1) 0 = hexChar ((bytes.getD k 0).extractLsb' 0 4) := by
  induction bytes generalizing k with
  | nil => exact absurd hk (Nat.not_lt_zero k)
  | cons b bytes ih =>
    rw [toHexString_cons]
    cases k with
    | zero => exact ⟨rfl, rfl⟩
    | succ k => exact ih (Nat.lt_of_succ_lt_succ hk)

/-- Settles O21: the code by the two ranges, the characters by induction on the bytes. -/
theorem hexCharactersOfBytes : Obligations.HexCharactersOfBytes :=
  ⟨toNat_hexChar, fun bytes => ⟨length_toHexString bytes, fun _ hk => getD_toHexString hk⟩⟩

theorem extractLsb'_extractLsb' {w start n lo len : Nat} (x : BitVec w) (h : lo + len ≤ n) :
    (x.extractLsb' start n).extractLsb' lo len = x.extractLsb' (start + lo) len := by
  ext i hi
  have hin : lo + i < n := by omega
  simp [hin, Nat.add_assoc]

/-- The characters of byte `k` of a word are its hex digits `2k + 1` and `2k`. -/
theorem hexByte_byteOf {w : Nat} (x : BitVec w) (k : Nat) :
    hexByte (byteOf x k) = [hexChar (x.extractLsb' (4 * (2 * k + 1)) 4), hexChar (x.extractLsb' (4 * (2 * k)) 4)] := by
  rw [hexByte, byteOf, extractLsb'_extractLsb' x (by omega), extractLsb'_extractLsb' x (by omega),
    show 8 * k + 4 = 4 * (2 * k + 1) by omega, show 8 * k + 0 = 4 * (2 * k) by omega]

/-- Settles O23: an encoder lists the bytes of the word from the top, and `mirror32` decodes them from the bottom. -/
theorem hexOfWordIsItsDigits : Obligations.HexOfWordIsItsDigits := by
  refine ⟨fun x => ?_, fun x => ?_, fun x => (be32enc_be32dec ..).symm⟩
  · simp only [toHexString, be32enc, List.flatMap_cons, hexByte_byteOf]
    rfl
  · simp only [toHexString, be64enc, List.flatMap_cons, hexByte_byteOf]
    rfl

theorem length_hexDigest (digest : Vector Byte 64) (alg : Alg) :
    (toHexString (digestPrefix digest alg.digestBytes)).length = 2 * alg.digestBytes := by
  rw [length_toHexString, length_digestPrefix]

/-- Settles O20: the word is the table's, and `len` counts two characters per digest byte. -/
theorem toHexReadsDigest : Obligations.ToHexReadsDigest := by
  refine fun s => ⟨rfl, fun hphase => ?_, exec_toHex_of_ne_done⟩
  rw [exec_toHex_done hphase, respond, length_hexDigest]
  rfl

/-- Settles O24: the length of the characters in phase DONE, at each algorithm's `D`. -/
theorem fixedOutputWidth : Obligations.FixedOutputWidth := by
  intro s hphase
  have hlen := length_hexDigest s.digest s.alg
  have hD := digestBytes_le s.alg
  refine ⟨_, _, exec_toHex_done hphase, respond_rsp .., rfl, ?_, hlen, ?_⟩
  · rw [hlen, BitVec.toNat_ofNat, Nat.mod_eq_of_lt (by omega)]
  · rw [hlen]
    cases s.alg <;> rfl

/-- The upper half of a 64-bit word as a 32-bit word. -/
theorem be32enc_upper_half (x : Word64) :
    be32enc (x.extractLsb' 32 32) = [byteOf x 7, byteOf x 6, byteOf x 5, byteOf x 4] := by
  have hbyte {k : Nat} (hk : k < 4) : byteOf (x.extractLsb' 32 32) k = byteOf x (4 + k) := by
    rw [byteOf, extractLsb'_extractLsb' x (by omega), byteOf, Nat.mul_add]
  simp only [be32enc, hbyte, Nat.reduceLT, Nat.reduceAdd]

/-- Settles O22: the kept words' encodings in order, and for SHA-512/224 the cut after four bytes of `H[3]`. -/
theorem serialisationByAlgorithm : Obligations.SerialisationByAlgorithm := by
  intro h
  rw [be32enc_upper_half]
  obtain ⟨⟨words⟩, hsize⟩ := h
  match words, hsize with
  | [_, _, _, _, _, _, _, _], _ => exact ⟨rfl, rfl, rfl, rfl, rfl, rfl, rfl, rfl⟩

end Sys2Proof.Machine
end

section
/-! Errors and the lifecycle (60_exceptions.md R340 to R360): the error of a command word as a function of the
decoded word and the state, and every statement about errors by its cases. -/

namespace Sys2Proof.Machine

/-- The first check that fails, in the order of R355, and none for a command that runs: the word's legality, then
the selector or the phase, then the length counter. -/
def firstError (c : Except IllegalWord Instr) (s : State) : Option ErrorKind :=
  match c with
  | .error _ => some .illegalCommand
  | .ok (.initUndef _) => some .invalidAlgorithmSelector
  | .ok (.update _) =>
    if s.phase ≠ .active then some .invalidState
    else if s.len.toNat + 8 > 2 ^ s.alg.counterBits - 1 then some .messageTooLarge else none
  | .ok .finalize => if s.phase ≠ .active then some .invalidState else none
  | .ok .toHex => if s.phase ≠ .done then some .invalidState else none
  | .ok _ => none

/-- The phase a command that raises nothing leaves (R360). -/
def phaseAfter : Except IllegalWord Instr → Phase
  | .ok .finalize => .done
  | .ok .toHex => .done
  | _ => .active

/-- The status a command answers, from its error if it has one. -/
def statusOf : Option ErrorKind → Status
  | none => .ok
  | some e => e.status

theorem statusOf_eq_status_iff {o : Option ErrorKind} {e : ErrorKind} : statusOf o = e.status ↔ o = some e := by
  cases o with
  | none => cases e <;> decide
  | some e' => cases e' <;> cases e <;> decide

section Equations
variable (s : State)

@[simp] theorem firstError_error (e : IllegalWord) : firstError (.error e) s = some .illegalCommand := rfl

@[simp] theorem firstError_initCommandOf (alg : Alg) : firstError (.ok (initCommandOf alg)) s = none := by
  cases alg <;> rfl

@[simp] theorem firstError_initUndef (selector : BitVec 4) :
    firstError (.ok (.initUndef selector)) s = some .invalidAlgorithmSelector := rfl

@[simp] theorem firstError_update (data : Byte) :
    firstError (.ok (.update data)) s =
      if s.phase ≠ .active then some .invalidState
      else if s.len.toNat + 8 > 2 ^ s.alg.counterBits - 1 then some .messageTooLarge else none := rfl

@[simp] theorem firstError_finalize :
    firstError (.ok .finalize) s = if s.phase ≠ .active then some .invalidState else none := rfl

@[simp] theorem firstError_toHex :
    firstError (.ok .toHex) s = if s.phase ≠ .done then some .invalidState else none := rfl

end Equations

@[simp] theorem initCommandOf_ne_initUndef (alg : Alg) (selector : BitVec 4) :
    initCommandOf alg ≠ .initUndef selector := by cases alg <;> simp [initCommandOf]

@[simp] theorem initCommandOf_ne_update (alg : Alg) (data : Byte) : initCommandOf alg ≠ .update data := by
  cases alg <;> simp [initCommandOf]

@[simp] theorem initCommandOf_ne_finalize (alg : Alg) : initCommandOf alg ≠ .finalize := by cases alg <;> decide

@[simp] theorem initCommandOf_ne_toHex (alg : Alg) : initCommandOf alg ≠ .toHex := by cases alg <;> decide

/-- A decoded word is illegal, an INIT of an algorithm, or one of the four other commands. -/
theorem decoded_cases (c : Except IllegalWord Instr) :
    (∃ e, c = .error e) ∨ (∃ alg, c = .ok (initCommandOf alg)) ∨ (∃ selector, c = .ok (.initUndef selector)) ∨
      (∃ data, c = .ok (.update data)) ∨ c = .ok .finalize ∨ c = .ok .toHex := by
  cases c with
  | error e => exact .inl ⟨e, rfl⟩
  | ok i => simpa using instr_cases i

/-- A command word raises its first error and leaves what `raise` leaves, or it has none and responds OK. -/
theorem runCommand_firstError {w : Word16} {s t : State} (h : runCommand w s = .next t) :
    (∃ e, firstError (decode w) s = some e ∧ t = raise e s) ∨
    (firstError (decode w) s = none ∧ t.phase = phaseAfter (decode w) ∧ ∃ r, t.rsp = some r ∧ r.status = .ok) := by
  rcases runCommand_cases h with ⟨e, hw, rfl⟩ | ⟨alg, hw, rfl⟩ | ⟨selector, hw, rfl⟩ | ⟨data, hw, hphase, rfl⟩ |
    ⟨data, hw, hphase, hover, rfl⟩ | ⟨data, hw, hphase, hroom, -, rfl⟩ | ⟨hw, hphase, rfl⟩ |
    ⟨hw, hphase, -, rfl⟩ | ⟨hw, hphase, rfl⟩ | ⟨hw, hphase, rfl⟩ <;> rw [hw]
  · exact .inl ⟨_, rfl, rfl⟩
  · exact .inr ⟨firstError_initCommandOf s alg, by cases alg <;> rfl, _, rfl, rfl⟩
  · exact .inl ⟨_, rfl, rfl⟩
  · exact .inl ⟨_, by simp [hphase], rfl⟩
  · rw [lengthWouldOverflow_eq_true_iff] at hover
    exact .inl ⟨_, by simp [hphase, hover], rfl⟩
  · rw [lengthWouldOverflow_eq_false_iff] at hroom
    exact .inr ⟨by simp [hphase, hroom], by simpa [phaseAfter] using hphase, _, rfl, rfl⟩
  · exact .inl ⟨_, by simp [hphase], rfl⟩
  · exact .inr ⟨by simp [hphase], finalized_phase s, _, finalized_rsp s, rfl⟩
  · exact .inl ⟨_, by simp [hphase], rfl⟩
  · exact .inr ⟨by simp [hphase], hphase, _, rfl, rfl⟩

/-- The status of the response is that of the first error. -/
theorem status_eq_statusOf_firstError {w : Word16} {s t : State} {r : Response} (h : runCommand w s = .next t)
    (hr : t.rsp = some r) : r.status = statusOf (firstError (decode w) s) := by
  rcases runCommand_firstError h with ⟨e, he, rfl⟩ | ⟨hnone, -, r', hr', hok⟩
  · cases hr
    rw [he]
    rfl
  · obtain rfl : r' = r := Option.some.inj (hr'.symm.trans hr)
    rw [hnone, hok]
    rfl

/-- Settles O26: the response of a command without an error is OK, and `raise` writes these three registers. -/
theorem errorsArePrecise : Obligations.ErrorsArePrecise := by
  intro w s t r hrun hr hstatus
  rcases runCommand_firstError hrun with ⟨e, -, rfl⟩ | ⟨hnone, -⟩
  · cases hr
    rfl
  · rw [status_eq_statusOf_firstError hrun hr, hnone] at hstatus
    exact absurd rfl hstatus

/-- The cause of each error (R341 to R344). -/
def errorCause (c : Except IllegalWord Instr) (s : State) : ErrorKind → Prop
  | .messageTooLarge =>
    ∃ data, c = .ok (.update data) ∧ s.phase = .active ∧ s.len.toNat + 8 > 2 ^ s.alg.counterBits - 1
  | .invalidAlgorithmSelector => ∃ selector, c = .ok (.initUndef selector)
  | .invalidState =>
    ((∃ data, c = .ok (.update data)) ∧ s.phase ≠ .active) ∨
    (c = .ok .finalize ∧ s.phase ≠ .active) ∨ (c = .ok .toHex ∧ s.phase ≠ .done)
  | .illegalCommand => ∃ e, c = .error e

/-- No command word has the causes of two errors, so the first error is the one whose cause it has. -/
theorem firstError_eq_some_iff {c : Except IllegalWord Instr} {s : State} {e : ErrorKind} :
    firstError c s = some e ↔ errorCause c s e := by
  rcases decoded_cases c with ⟨_, rfl⟩ | ⟨alg, rfl⟩ | ⟨selector, rfl⟩ | ⟨data, rfl⟩ | rfl | rfl
  · cases e <;> simp [errorCause]
  · cases e <;> simp [errorCause]
  · cases e <;> simp [errorCause]
  · by_cases hphase : s.phase = .active <;> cases e <;> simp [errorCause, hphase]
  · cases e <;> simp [errorCause]
  · cases e <;> simp [errorCause]

/-- Settles O27: a status is answered exactly for the first error, and that is the one whose cause the word has. -/
theorem eachErrorHasItsCause : Obligations.EachErrorHasItsCause := by
  intro w s t r hrun hr
  have hstatus (e : ErrorKind) : r.status = e.status ↔ errorCause (decode w) s e := by
    rw [status_eq_statusOf_firstError hrun hr, statusOf_eq_status_iff, firstError_eq_some_iff]
  exact ⟨hstatus .messageTooLarge, hstatus .invalidAlgorithmSelector, hstatus .invalidState, hstatus .illegalCommand⟩

/-- Settles O29: the causes of O27, each as a rule for the status. -/
theorem checksInFixedOrder : Obligations.ChecksInFixedOrder := by
  intro w s t r hrun hr
  obtain ⟨hlarge, hselector, hstate, hillegal⟩ := eachErrorHasItsCause w s t r hrun hr
  exact ⟨hillegal.mpr, fun selector hw => hselector.mpr ⟨selector, hw⟩,
    fun data hw hphase => hstate.mpr (.inl ⟨⟨data, hw⟩, hphase⟩),
    fun hw hphase => hstate.mpr (.inr (.inl ⟨hw, hphase⟩)),
    fun hw hphase => hstate.mpr (.inr (.inr ⟨hw, hphase⟩)),
    fun data hw hphase hover => hlarge.mpr ⟨data, hw, hphase, hover⟩⟩

/-- The entry of the phase transition table (R360): an error fails the context, and without one the command leaves
its phase. -/
def transition (c : Except IllegalWord Instr) (s : State) : Status × Phase :=
  match firstError c s with
  | some e => (e.status, .failed)
  | none => (.ok, phaseAfter c)

/-- Every command word takes its transition, and an error is the `raise` of it (R345). -/
theorem runCommand_transition {w : Word16} {s t : State} (h : runCommand w s = .next t) :
    ∃ r, t.rsp = some r ∧ (r.status ≠ .ok → ∃ e : ErrorKind, r.status = e.status ∧ t = raise e s) ∧
      (r.status, t.phase) = transition (decode w) s := by
  rcases runCommand_firstError h with ⟨e, he, rfl⟩ | ⟨hnone, hphase, r, hr, hok⟩
  · exact ⟨_, rfl, fun _ => ⟨e, rfl, rfl⟩, by rw [transition, he]; rfl⟩
  · exact ⟨r, hr, fun hne => absurd hok hne, by rw [transition, hnone, hok, hphase]⟩

/-- Settles O30: `transition` is the table's entry, column by column and phase by phase. -/
theorem phaseTransitionTable : Obligations.PhaseTransitionTable := by
  intro w s t hrun
  obtain ⟨r, hr, hraise, hentry⟩ := runCommand_transition hrun
  refine ⟨r, hr, hraise, hentry.trans ?_⟩
  rcases decoded_cases (decode w) with ⟨e, hw⟩ | ⟨alg, hw⟩ | ⟨selector, hw⟩ | ⟨data, hw⟩ | hw | hw <;> rw [hw]
  · cases s.phase <;> rfl
  · cases alg <;> cases s.phase <;> rfl
  · cases s.phase <;> rfl
  · cases hphase : s.phase with
    | active =>
      by_cases hover : s.len.toNat + 8 > 2 ^ s.alg.counterBits - 1 <;>
        simp [transition, hphase, hover, phaseAfter, ErrorKind.status]
    | uninit | done | failed => simp [transition, hphase, ErrorKind.status]
  · cases hphase : s.phase <;> simp [transition, hphase, phaseAfter, ErrorKind.status]
  · cases hphase : s.phase <;> simp [transition, hphase, phaseAfter, ErrorKind.status]

/-- A raise in phase FAILED changes nothing but the response: `ERR` keeps the first error (R345). -/
theorem raise_of_failed (e : ErrorKind) {s : State} (hphase : s.phase = .failed) :
    raise e s = { s with rsp := some { status := e.status, len := 0, data := [] } } := by
  simp [raise, respond, hphase]

/-- In phase FAILED only INIT of an algorithm has no error. -/
theorem exists_init_of_failed {c : Except IllegalWord Instr} {s : State} (hphase : s.phase = .failed)
    (hnone : firstError c s = none) : ∃ alg, c = .ok (initCommandOf alg) := by
  rcases decoded_cases c with ⟨e, rfl⟩ | halg | ⟨selector, rfl⟩ | ⟨data, rfl⟩ | rfl | rfl
  case inr.inl => exact halg
  all_goals simp [hphase] at hnone

/-- Settles O31: a command word without an error is an INIT, and one with an error raises that of its kind. -/
theorem onlyInitLeavesFailed : Obligations.OnlyInitLeavesFailed := by
  intro w s t hphase hrun
  rcases runCommand_firstError hrun with ⟨e, he, rfl⟩ | ⟨hnone, -⟩
  · refine .inr ⟨fun alg hw => by simp [hw] at he, _, rfl, rfl, raise_of_failed e hphase, ?_⟩
    rcases decoded_cases (decode w) with ⟨_, hw⟩ | ⟨alg, hw⟩ | ⟨selector, hw⟩ | ⟨data, hw⟩ | hw | hw <;>
      rw [hw] at he ⊢
    · cases he
      rfl
    · simp at he
    · cases he
      rfl
    all_goals
      obtain rfl : ErrorKind.invalidState = e := by simpa [hphase] using he
      rfl
  · obtain ⟨alg, hw⟩ := exists_init_of_failed hphase hnone
    rw [runCommand_ok hw, exec_initCommandOf] at hrun
    cases hrun
    exact .inl ⟨alg, hw, rfl, rfl⟩

end Sys2Proof.Machine
end
